-- ==== Sys2Proof/Word.lean ====
section
/-! DEFINITION. The word types of the block: bytes (NAND registers, serial and flash transfers, event codes), half
words (expander registers, write data) and the 32-bit stimulus word of 30_encoding R60. -/

namespace Sys2Proof

/-- An 8-bit quantity: a NAND register, a flash or serial transfer, an event code. -/
abbrev Byte := BitVec 8

/-- A 16-bit quantity: an expander register or the write data of a bus word. -/
abbrev Half := BitVec 16

/-- A 32-bit quantity: the stimulus word (R60), a GPIO bank element (R20), a bus read result (R73). -/
abbrev Word := BitVec 32

end Sys2Proof
end

