-- ==== Sys2Proof/Syntax.lean ====
section
/-! DEFINITION. The stimuli of the block as syntax: one constructor of `Instr` for each row of
spec/opcode_table.json, with the operands of 30_encoding R61 to R64. -/

namespace Sys2Proof

/-- The bus access size of R61: 1, 2 or 4 bytes. It selects nothing but the width of a read result (20_memory R44). -/
inductive Size where
  | b1
  | b2
  | b4
deriving DecidableEq, Repr

/-- The two register-mapped devices of 41_register_dispatch R100. -/
inductive Dev where
  | nand
  | exp
deriving DecidableEq, Repr

/-- The direction of a register access (30_encoding R68). -/
inductive Dir where
  | read
  | write
deriving DecidableEq, Repr

/-- A canonical line index of 10_state R13. -/
abbrev Line := Fin 64

/-- A handler identifier of 10_state R14. The external handler carries no index: bound to line `l` it is `Ext[l]`
(30_encoding R62: hid 0x80 is `Ext[line]`). -/
inductive Handler where
  /-- `H_STROBE(c)` of 45_key_matrix R191. -/
  | strobe (c : Fin 11)
  /-- `H_CS(i)` of 44_serial_demux R181. -/
  | cs (i : Fin 3)
  /-- `Ext[l]`, an output of the block. -/
  | ext
deriving DecidableEq, Repr

/-- One stimulus (00_scope R2); the constructors follow the order of spec/opcode_table.json. -/
inductive Instr where
  | nandRdEcclpl (sz : Size)
  | nandRdEcclpu (sz : Size)
  | nandRdEcccp (sz : Size)
  | nandRdEcccnt (sz : Size)
  | nandRdEccclr (sz : Size)
  | nandRdIo (sz : Size)
  | nandRdCtl (sz : Size)
  | expRdMode (sz : Size)
  | expRdCmddata (sz : Size)
  | expRdStatus (sz : Size)
  | expRdPower (sz : Size)
  | expRdClock (sz : Size)
  | expRdIrr (sz : Size)
  | expRdImask (sz : Size)
  | expRdIstat (sz : Size)
  | expRdGpdir (sz : Size)
  | expRdGpout (sz : Size)
  | expRdGprb (sz : Size)
  | nandRdUnknown (sz : Size) (off : Byte)
  | expRdUnknown (sz : Size) (off : Byte)
  | nandWrEcclpl (sz : Size) (data : Half)
  | nandWrEcclpu (sz : Size) (data : Half)
  | nandWrEcccp (sz : Size) (data : Half)
  | nandWrEcccnt (sz : Size) (data : Half)
  | nandWrEccclr (sz : Size) (data : Half)
  | nandWrIo (sz : Size) (data : Half)
  | nandWrCtl (sz : Size) (data : Half)
  | expWrMode (sz : Size) (data : Half)
  | expWrCmddata (sz : Size) (data : Half)
  | expWrStatus (sz : Size) (data : Half)
  | expWrPower (sz : Size) (data : Half)
  | expWrClock (sz : Size) (data : Half)
  | expWrIrctl (sz : Size) (data : Half)
  | expWrImask (sz : Size) (data : Half)
  | expWrIstat (sz : Size) (data : Half)
  | expWrGpdir (sz : Size) (data : Half)
  | expWrGpout (sz : Size) (data : Half)
  | expWrGprb (sz : Size) (data : Half)
  | nandWrUnknown (sz : Size) (off : Byte) (data : Half)
  | expWrUnknown (sz : Size) (off : Byte) (data : Half)
  | sigSet (line : Line) (level : Bool)
  | sigGet (line : Line)
  | sigReg (line : Line) (handler : Handler)
  | keyDown (kc : BitVec 7)
  | keyUp (kc : BitVec 7)
  | tick
  | sspRd
  | sspWr (byte : Byte)
  | hsyncNotify
  | attach
  | teardown
deriving DecidableEq, Repr

/-- What an agent hands to the block: a stimulus word (R60), or a register access given by its physical address
(41_register_dispatch R101, R102), which the Register Dispatch decodes. -/
inductive Stimulus where
  | word (w : Word)
  | memRead (addr : Nat) (n : Size)
  | memWrite (addr : Nat) (n : Size) (v : Word)
deriving DecidableEq, Repr

end Sys2Proof
end

