-- ==== Sys2Proof/Config.lean ====
section
/-! DEFINITION. What an implementation fixes (10_state R32, 00_scope section 5, 92 "Open parameters") and the free
values: what the spec leaves open and the machine goes on with. -/

namespace Sys2Proof

/-- An entry of `KEYMAP` before `ATTACH` has checked it (30_encoding R75): unmapped, or a row and a column. -/
inductive KeyEntry where
  | unmapped
  | cell (row col : Nat)
deriving DecidableEq, Repr

/-- `DEMUX_READ_MERGE` (44_serial_demux R183, D21): the value of a serial read with two or more selects asserted. -/
inductive ReadMerge where
  /-- The byte of the lowest-indexed selected chip, the spec's choice for simulation. -/
  | first
  /-- Any value, the spec's treatment for proofs (93 U3). -/
  | anyValue
deriving DecidableEq, Repr

/-- `NAND_OFF[7]` (30_encoding R66, D7): the byte offset of each register of the NAND block. -/
structure NandOffsets where
  ecclpl : Byte
  ecclpu : Byte
  eccp : Byte
  ecccnt : Byte
  eccclr : Byte
  io : Byte
  ctl : Byte
deriving DecidableEq, Repr

/-- `EXP_OFF[11]` (30_encoding R67, D8): the byte offset of each register of the Expander block; `irctl` is the one
offset of IR-control (written) and the read-only-interrupt register (read). -/
structure ExpOffsets where
  mode : Byte
  cmddata : Byte
  status : Byte
  power : Byte
  clock : Byte
  irctl : Byte
  imask : Byte
  istat : Byte
  gpdir : Byte
  gpout : Byte
  gprb : Byte
deriving DecidableEq, Repr

/-- Where the registers of both blocks stand. -/
structure RegisterMap where
  nand : NandOffsets
  exp : ExpOffsets
deriving DecidableEq, Repr

/-- `CTL_BITS` (30_encoding R70, D11): the bit positions of the NAND control register. -/
structure CtlBits where
  ce0 : Fin 8
  cle : Fin 8
  ale : Fin 8
  wp : Fin 8
  ce1 : Fin 8
  /-- The ready/busy bit: never stored, read from the live pin. -/
  rb : Fin 8
deriving DecidableEq, Repr

/-- One of the two line-parity accumulators (10_state R16). -/
inductive Accumulator where
  | lp0
  | lp1
deriving DecidableEq, Repr

/-- The readback permutation, part of `ECC_DIGEST` (30_encoding R71, D14). The source fixes that the even positions come
from one accumulator and the odd ones from the other; open is from which, and which of its bits each position shows. -/
structure EccReadback where
  /-- The accumulator of the even positions; the odd ones come from the other. -/
  even : Accumulator
  /-- The accumulator bit at each position of line-parity-low. -/
  low : Vector (Fin 8) 8
  /-- The accumulator bit at each position of line-parity-high. -/
  high : Vector (Fin 8) 8
deriving DecidableEq, Repr

/-- The accumulator update, part of `ECC_DIGEST` (42_nand_ecc R120, D13). -/
inductive EccUpdate where
  /-- The spec's own line/column parity. -/
  | lineColumn
  /-- Any other function of the byte, its number modulo 256 and the accumulators (R114, R122): `Config.eccOther`. -/
  | other
deriving DecidableEq, Repr

/-- The configuration of R32, fixed at `ATTACH`. It is raw: `ATTACH` checks it (70_reset_and_hazards R269). -/
structure Config where
  /-- `NAND_BASE` (D6). -/
  nandBase : Nat
  /-- `EXP_BASE` (D6). -/
  expBase : Nat
  /-- Bits of a physical address, past which a register range would wrap (R269 a). -/
  addrBits : Nat
  /-- `KEYMAP`, by host keycode (R75). -/
  keymap : List KeyEntry
  /-- `REMAP`, by any-shift bit and host keycode (R76). -/
  remap : List (BitVec 10)
  /-- `KC_LSHIFT` (D24). -/
  kcLshift : BitVec 7
  /-- `KC_RSHIFT` (D24). -/
  kcRshift : BitVec 7
  /-- `KC_CTRL` (D24). -/
  kcCtrl : BitVec 7
  /-- `KC_ALT` (D24). -/
  kcAlt : BitVec 7
  /-- `INVERT`, by special column (D33). -/
  invert : List Bool
  /-- `WIRING`, the handler bound to each line at attachment (D5). -/
  wiring : Vector (Option Handler) 64
  /-- `LINE_ID`, the platform's number of each line (D3). No rule reads it. -/
  lineId : List Nat
  /-- `TICK_HZ` (D30); the tick interval is its reciprocal. -/
  tickHz : Nat
  /-- `EXP_STATUS_INIT` (D18). -/
  expStatusInit : Half
  /-- `EXP_IRR_INIT` (D18). -/
  expIrrInit : Half
  /-- `ECC_ATTACH_CLEARS` (D16). -/
  eccAttachClears : Bool
  /-- `HSYNC_ON_EXP_STATUS_READ` (D31). -/
  hsyncOnExpStatusRead : Bool
  /-- `DEMUX_READ_MERGE` (D21). -/
  demuxMerge : ReadMerge
  /-- Which serial chips are fitted (44_serial_demux R180: "up to three"). -/
  chipFitted : Vector Bool 3
  /-- `NAND_OFF` and `EXP_OFF` (D7, D8). -/
  regs : RegisterMap
  /-- `CTL_BITS` (D11). -/
  ctlBits : CtlBits
  /-- `ECC_DIGEST`, the accumulator update (D13). -/
  eccUpdate : EccUpdate
  /-- `ECC_DIGEST`, the readback permutation (D14). -/
  eccReadback : EccReadback
  /-- `COLPAR` as a table (42_nand_ecc R121: "hold the function as a configuration field"). -/
  colpar : Vector (BitVec 7) 256
deriving DecidableEq, Repr

/-! ## Free values (93 part 1, treatment "any value"). Nothing constrains them. -/

/-- An open byte: an ECC accumulator or a queue entry after `ATTACH` (U1, U2), a flash or chip answer (U8), a serial
read with several selects (U3). -/
opaque Config.freeByte : Nat → Byte

/-- The open ECC counter after `ATTACH` (U1). -/
opaque Config.freeCount : Nat → Half

/-- The flash chip's live ready/busy pin (U8). -/
opaque Config.freeReady : Nat → Bool

/-- The handle `Sched.scheduleRepeating` returns (00_scope R5). -/
opaque Config.freeHandle : Nat → Nat

/-- The bits above bit 7 of the result of a 1-byte read of a 16-bit register, by offset and register value: the spec
states no result there (R44 says zero-extended). A function, because such a read is idempotent (R45). -/
opaque Config.narrowHigh : Byte → Half → Byte

/-- The accumulators `(lp0, lp1, cp)` after a byte, under an `ECC_DIGEST` other than the spec's own (R122): a function of
the byte, the low byte of the counter before it and the accumulators, of which nothing else is known. The counter's bits
above bit 7 are never visible (R114, 10_state R17, D15), so they are no argument. -/
opaque Config.eccOther (b count lp0 lp1 cp : Byte) : Byte × Byte × Byte

end Sys2Proof
end

