-- ==== Sys2Proof/WellFormed.lean ====
section
/-! DEFINITION. Which terms of `Instr` stand for a stimulus. The types of the operands carry the ranges of R61 to R64
(a line below 64, a legal handler, a 7-bit keycode); what is left to check is the offset of the four generic
unknown-offset rows, which match "only when no earlier row matched" (30_encoding R69) and only inside the span (R77). -/

namespace Sys2Proof

/-- `SPAN`, the bytes each register block claims (20_memory R41). -/
def span : Nat := 0x40

/-- A byte offset inside a register block (R61: only `off < SPAN` is inside). -/
def insideSpan (off : Byte) : Bool := off.toNat < span

/-- The offsets with a row of their own in a block: the seven of R66, the eleven of R67, all multiples of 4. -/
def listedOffset (dev : Dev) (off : Byte) : Bool :=
  let last := match dev with
    | .nand => 0x18
    | .exp => 0x28
  off.toNat % 4 == 0 && off.toNat ≤ last

/-- An offset that only the generic unknown-offset row of the block matches. -/
def unknownOffset (dev : Dev) (off : Byte) : Bool := insideSpan off && !listedOffset dev off

/-- The well-formed stimuli: exactly those that have a stimulus word of their own. -/
def Instr.wellFormed : Instr → Bool
  | .nandRdUnknown _ off => unknownOffset .nand off
  | .expRdUnknown _ off => unknownOffset .exp off
  | .nandWrUnknown _ off _ => unknownOffset .nand off
  | .expWrUnknown _ off _ => unknownOffset .exp off
  | .nandRdEcclpl _ | .nandRdEcclpu _ | .nandRdEcccp _ | .nandRdEcccnt _ | .nandRdEccclr _ | .nandRdIo _
  | .nandRdCtl _ | .expRdMode _ | .expRdCmddata _ | .expRdStatus _ | .expRdPower _ | .expRdClock _ | .expRdIrr _
  | .expRdImask _ | .expRdIstat _ | .expRdGpdir _ | .expRdGpout _ | .expRdGprb _ | .nandWrEcclpl _ _
  | .nandWrEcclpu _ _ | .nandWrEcccp _ _ | .nandWrEcccnt _ _ | .nandWrEccclr _ _ | .nandWrIo _ _ | .nandWrCtl _ _
  | .expWrMode _ _ | .expWrCmddata _ _ | .expWrStatus _ _ | .expWrPower _ _ | .expWrClock _ _ | .expWrIrctl _ _
  | .expWrImask _ _ | .expWrIstat _ _ | .expWrGpdir _ _ | .expWrGpout _ _ | .expWrGprb _ _ | .sigSet _ _ | .sigGet _
  | .sigReg _ _ | .keyDown _ | .keyUp _ | .tick | .sspRd | .sspWr _ | .hsyncNotify | .attach | .teardown => true

end Sys2Proof
end

