-- ==== Sys2Proof/Decode.lean ====
section
/-! DEFINITION. The decoder of stimulus words (30_encoding R60 to R68, R77), total and rejecting by name,
and the encoder, from the same tables. -/

namespace Sys2Proof

/-- Why a stimulus word is `invalid` (R77). -/
inductive Invalid where
  /-- Class 0xC to 0xF. -/
  | reservedClass
  /-- A BUS word with `blk` 2 or 3. -/
  | reservedBlock
  /-- A BUS word with `sz` 3. -/
  | reservedSize
  /-- A BUS word with `off >= 0x40`. -/
  | offsetOutsideSpan
  /-- A BUS.RD word with non-zero data. -/
  | readWithData
  /-- A SIG word with `line >= 64` (R96). -/
  | lineOutsideCatalog
  /-- A SIG.REG word with a reserved `hid`. -/
  | reservedHandler
  /-- A non-zero bit outside the fields of the word's format. -/
  | strayBits
deriving DecidableEq, Repr

/-! ## Fields -/

/-- `w[31:28]`, the class (R60). -/
def classOf (w : Word) : BitVec 4 := w.extractLsb' 28 4

/-- `w[27:26]`, the block of a BUS word (R61). -/
def blkOf (w : Word) : BitVec 2 := w.extractLsb' 26 2

/-- `w[25:24]`, the access size of a BUS word (R61). -/
def szOf (w : Word) : BitVec 2 := w.extractLsb' 24 2

/-- `w[23:16]`, the byte offset of a BUS word (R61) and the handler identifier of SIG.REG (R62). -/
def byte2Of (w : Word) : Byte := w.extractLsb' 16 8

/-- `w[15:0]`, the data of a BUS word (R61) and the line of a SIG word (R62). -/
def lowOf (w : Word) : Half := w.extractLsb' 0 16

/-- The two size bits of R61; 3 is reserved. -/
def sizeOfBits (b : BitVec 2) : Option Size :=
  match b with
  | 0#2 => some .b1
  | 1#2 => some .b2
  | 2#2 => some .b4
  | _ => none

/-- The size bits of an access size (R61). -/
def sizeBits : Size → BitVec 2
  | .b1 => 0#2
  | .b2 => 1#2
  | .b4 => 2#2

/-- The block bits of R61; 2 and 3 are reserved. -/
def devOfBits (b : BitVec 2) : Option Dev :=
  match b with
  | 0#2 => some .nand
  | 1#2 => some .exp
  | _ => none

/-- The block bits of a device (R61). -/
def devBits : Dev → BitVec 2
  | .nand => 0#2
  | .exp => 1#2

/-- The handler identifier `hid` of R62; every other value is reserved. -/
def handlerOfHid (hid : Byte) : Option Handler :=
  if h : hid.toNat < 11 then some (.strobe ⟨hid.toNat, h⟩)
  else if h : 16 ≤ hid.toNat ∧ hid.toNat < 19 then some (.cs ⟨hid.toNat - 16, by omega⟩)
  else if hid = 0x80#8 then some .ext
  else none

/-- The `hid` of a handler (R62). -/
def hidOf : Handler → Byte
  | .strobe c => BitVec.ofNat 8 c.val
  | .cs i => BitVec.ofNat 8 (16 + i.val)
  | .ext => 0x80#8

/-! ## Register decode tables (R66 to R68) -/

/-- The offsets that R66 and R67 state, in the order of their tables. -/
def standardMap : RegisterMap where
  nand := ⟨0x00#8, 0x04#8, 0x08#8, 0x0C#8, 0x10#8, 0x14#8, 0x18#8⟩
  exp := ⟨0x00#8, 0x04#8, 0x08#8, 0x0C#8, 0x10#8, 0x14#8, 0x18#8, 0x1C#8, 0x20#8, 0x24#8, 0x28#8⟩

/-- The read-side decode table: the read of `dev` at `off`, the unknown-offset read (R103) where no register stands. -/
def readInstr (m : RegisterMap) (dev : Dev) (sz : Size) (off : Byte) : Instr :=
  match dev with
  | .nand =>
    if off = m.nand.ecclpl then .nandRdEcclpl sz
    else if off = m.nand.ecclpu then .nandRdEcclpu sz
    else if off = m.nand.eccp then .nandRdEcccp sz
    else if off = m.nand.ecccnt then .nandRdEcccnt sz
    else if off = m.nand.eccclr then .nandRdEccclr sz
    else if off = m.nand.io then .nandRdIo sz
    else if off = m.nand.ctl then .nandRdCtl sz
    else .nandRdUnknown sz off
  | .exp =>
    if off = m.exp.mode then .expRdMode sz
    else if off = m.exp.cmddata then .expRdCmddata sz
    else if off = m.exp.status then .expRdStatus sz
    else if off = m.exp.power then .expRdPower sz
    else if off = m.exp.clock then .expRdClock sz
    else if off = m.exp.irctl then .expRdIrr sz
    else if off = m.exp.imask then .expRdImask sz
    else if off = m.exp.istat then .expRdIstat sz
    else if off = m.exp.gpdir then .expRdGpdir sz
    else if off = m.exp.gpout then .expRdGpout sz
    else if off = m.exp.gprb then .expRdGprb sz
    else .expRdUnknown sz off

/-- The write-side decode table: the write of `dev` at `off`, the unknown-offset write (R104) where no register
stands. -/
def writeInstr (m : RegisterMap) (dev : Dev) (sz : Size) (off : Byte) (data : Half) : Instr :=
  match dev with
  | .nand =>
    if off = m.nand.ecclpl then .nandWrEcclpl sz data
    else if off = m.nand.ecclpu then .nandWrEcclpu sz data
    else if off = m.nand.eccp then .nandWrEcccp sz data
    else if off = m.nand.ecccnt then .nandWrEcccnt sz data
    else if off = m.nand.eccclr then .nandWrEccclr sz data
    else if off = m.nand.io then .nandWrIo sz data
    else if off = m.nand.ctl then .nandWrCtl sz data
    else .nandWrUnknown sz off data
  | .exp =>
    if off = m.exp.mode then .expWrMode sz data
    else if off = m.exp.cmddata then .expWrCmddata sz data
    else if off = m.exp.status then .expWrStatus sz data
    else if off = m.exp.power then .expWrPower sz data
    else if off = m.exp.clock then .expWrClock sz data
    else if off = m.exp.irctl then .expWrIrctl sz data
    else if off = m.exp.imask then .expWrImask sz data
    else if off = m.exp.istat then .expWrIstat sz data
    else if off = m.exp.gpdir then .expWrGpdir sz data
    else if off = m.exp.gpout then .expWrGpout sz data
    else if off = m.exp.gprb then .expWrGprb sz data
    else .expWrUnknown sz off data

/-! ## Decoding -/

/-- The fields every BUS word has, checked in the order of R65: block, size, offset. -/
def decodeBus (w : Word) : Except Invalid (Dev × Size × Byte) :=
  match devOfBits (blkOf w) with
  | none => .error .reservedBlock
  | some dev =>
    match sizeOfBits (szOf w) with
    | none => .error .reservedSize
    | some sz => if insideSpan (byte2Of w) then .ok (dev, sz, byte2Of w) else .error .offsetOutsideSpan

/-- The line of a SIG word, below 64 (R62, R96). -/
def decodeLine (w : Word) : Except Invalid Line :=
  if h : (lowOf w).toNat < 64 then .ok ⟨(lowOf w).toNat, h⟩ else .error .lineOutsideCatalog

/-- A word of format NONE: every bit below the class is zero (R64). -/
def decodeNone (w : Word) (i : Instr) : Except Invalid Instr :=
  if w.extractLsb' 0 28 = 0#28 then .ok i else .error .strayBits

/-- Class 0x0, BUS.RD (R61, R101). -/
def decodeRead (m : RegisterMap) (w : Word) : Except Invalid Instr :=
  match decodeBus w with
  | .error e => .error e
  | .ok (dev, sz, off) => if lowOf w = 0#16 then .ok (readInstr m dev sz off) else .error .readWithData

/-- Class 0x1, BUS.WR (R61, R102). -/
def decodeWrite (m : RegisterMap) (w : Word) : Except Invalid Instr :=
  match decodeBus w with
  | .error e => .error e
  | .ok (dev, sz, off) => .ok (writeInstr m dev sz off (lowOf w))

/-- Class 0x2, SIG.SET (R62). -/
def decodeSigSet (w : Word) : Except Invalid Instr :=
  match decodeLine w with
  | .error e => .error e
  | .ok l => if w.extractLsb' 17 11 = 0#11 then .ok (.sigSet l (w.getLsbD 16)) else .error .strayBits

/-- Class 0x3, SIG.GET (R62). -/
def decodeSigGet (w : Word) : Except Invalid Instr :=
  match decodeLine w with
  | .error e => .error e
  | .ok l => if w.extractLsb' 16 12 = 0#12 then .ok (.sigGet l) else .error .strayBits

/-- Class 0x4, SIG.REG (R62). -/
def decodeSigReg (w : Word) : Except Invalid Instr :=
  match decodeLine w with
  | .error e => .error e
  | .ok l =>
    match handlerOfHid (byte2Of w) with
    | none => .error .reservedHandler
    | some h => if w.extractLsb' 24 4 = 0#4 then .ok (.sigReg l h) else .error .strayBits

/-- Class 0x5, KEY (R63). -/
def decodeKey (w : Word) : Except Invalid Instr :=
  if w.extractLsb' 8 20 = 0#20 then
    .ok (if w.getLsbD 7 then .keyUp (w.extractLsb' 0 7) else .keyDown (w.extractLsb' 0 7))
  else .error .strayBits

/-- Class 0x8, SSP.WR (R64). -/
def decodeSspWr (w : Word) : Except Invalid Instr :=
  if w.extractLsb' 8 20 = 0#20 then .ok (.sspWr (w.extractLsb' 0 8)) else .error .strayBits

/-- The decoder of R65 for a block whose registers stand where `m` says: every word decodes to exactly one stimulus or is
`invalid`, with the reason of R77, which no register map changes. -/
def decodeWith (m : RegisterMap) (w : Word) : Except Invalid Instr :=
  match classOf w with
  | 0x0#4 => decodeRead m w
  | 0x1#4 => decodeWrite m w
  | 0x2#4 => decodeSigSet w
  | 0x3#4 => decodeSigGet w
  | 0x4#4 => decodeSigReg w
  | 0x5#4 => decodeKey w
  | 0x6#4 => decodeNone w .tick
  | 0x7#4 => decodeNone w .sspRd
  | 0x8#4 => decodeSspWr w
  | 0x9#4 => decodeNone w .hsyncNotify
  | 0xA#4 => decodeNone w .attach
  | 0xB#4 => decodeNone w .teardown
  | _ => .error .reservedClass

/-- The decoder for the offsets of R66 and R67, those of spec/opcode_table.json. -/
def decode (w : Word) : Except Invalid Instr := decodeWith standardMap w

/-- The instruction the decoder reads from an instruction whose bits are `w`, the bits above `nbits` zero. Every
stimulus word is one 32-bit word (R60), so there is no byte layout to choose. -/
def decodeTableWord (nbits w : Nat) : Option Instr :=
  match decode (BitVec.ofNat 32 (w % 2 ^ nbits)) with
  | .ok i => some i
  | .error _ => none

/-! ## Encoding -/

/-- A BUS word (R61). -/
def busWord (dir : Dir) (dev : Dev) (sz : Size) (off : Byte) (data : Half) : Word :=
  (match dir with | .read => 0x0#4 | .write => 0x1#4) ++ devBits dev ++ sizeBits sz ++ off ++ data

/-- A SIG word (R62): the class, the twelve bits above the line, the line. -/
def sigWord (cls : BitVec 4) (mid : BitVec 12) (l : Line) : Word := cls ++ mid ++ BitVec.ofNat 16 l.val

/-- A KEY word (R63). -/
def keyWord (up : Bool) (kc : BitVec 7) : Word := 0x500000#24 ++ BitVec.ofBool up ++ kc

/-- The stimulus word of a well-formed stimulus (R60 to R64, R66, R67). -/
def encode : Instr → Word
  | .nandRdEcclpl sz => busWord .read .nand sz 0x00#8 0#16
  | .nandRdEcclpu sz => busWord .read .nand sz 0x04#8 0#16
  | .nandRdEcccp sz => busWord .read .nand sz 0x08#8 0#16
  | .nandRdEcccnt sz => busWord .read .nand sz 0x0C#8 0#16
  | .nandRdEccclr sz => busWord .read .nand sz 0x10#8 0#16
  | .nandRdIo sz => busWord .read .nand sz 0x14#8 0#16
  | .nandRdCtl sz => busWord .read .nand sz 0x18#8 0#16
  | .expRdMode sz => busWord .read .exp sz 0x00#8 0#16
  | .expRdCmddata sz => busWord .read .exp sz 0x04#8 0#16
  | .expRdStatus sz => busWord .read .exp sz 0x08#8 0#16
  | .expRdPower sz => busWord .read .exp sz 0x0C#8 0#16
  | .expRdClock sz => busWord .read .exp sz 0x10#8 0#16
  | .expRdIrr sz => busWord .read .exp sz 0x14#8 0#16
  | .expRdImask sz => busWord .read .exp sz 0x18#8 0#16
  | .expRdIstat sz => busWord .read .exp sz 0x1C#8 0#16
  | .expRdGpdir sz => busWord .read .exp sz 0x20#8 0#16
  | .expRdGpout sz => busWord .read .exp sz 0x24#8 0#16
  | .expRdGprb sz => busWord .read .exp sz 0x28#8 0#16
  | .nandRdUnknown sz off => busWord .read .nand sz off 0#16
  | .expRdUnknown sz off => busWord .read .exp sz off 0#16
  | .nandWrEcclpl sz data => busWord .write .nand sz 0x00#8 data
  | .nandWrEcclpu sz data => busWord .write .nand sz 0x04#8 data
  | .nandWrEcccp sz data => busWord .write .nand sz 0x08#8 data
  | .nandWrEcccnt sz data => busWord .write .nand sz 0x0C#8 data
  | .nandWrEccclr sz data => busWord .write .nand sz 0x10#8 data
  | .nandWrIo sz data => busWord .write .nand sz 0x14#8 data
  | .nandWrCtl sz data => busWord .write .nand sz 0x18#8 data
  | .expWrMode sz data => busWord .write .exp sz 0x00#8 data
  | .expWrCmddata sz data => busWord .write .exp sz 0x04#8 data
  | .expWrStatus sz data => busWord .write .exp sz 0x08#8 data
  | .expWrPower sz data => busWord .write .exp sz 0x0C#8 data
  | .expWrClock sz data => busWord .write .exp sz 0x10#8 data
  | .expWrIrctl sz data => busWord .write .exp sz 0x14#8 data
  | .expWrImask sz data => busWord .write .exp sz 0x18#8 data
  | .expWrIstat sz data => busWord .write .exp sz 0x1C#8 data
  | .expWrGpdir sz data => busWord .write .exp sz 0x20#8 data
  | .expWrGpout sz data => busWord .write .exp sz 0x24#8 data
  | .expWrGprb sz data => busWord .write .exp sz 0x28#8 data
  | .nandWrUnknown sz off data => busWord .write .nand sz off data
  | .expWrUnknown sz off data => busWord .write .exp sz off data
  | .sigSet l v => sigWord 0x2#4 (0#11 ++ BitVec.ofBool v) l
  | .sigGet l => sigWord 0x3#4 0#12 l
  | .sigReg l h => sigWord 0x4#4 (0#4 ++ hidOf h) l
  | .keyDown kc => keyWord false kc
  | .keyUp kc => keyWord true kc
  | .tick => 0x60000000#32
  | .sspRd => 0x70000000#32
  | .sspWr b => 0x800000#24 ++ b
  | .hsyncNotify => 0x90000000#32
  | .attach => 0xA0000000#32
  | .teardown => 0xB0000000#32

end Sys2Proof
end

