-- ==== Sys2Proof/Machine/Operands.lean ====
section
/-! DEFINITION. Operand assembly (30_encoding section 4), the line catalog (10_state R13), the bit positions of the
modifier masks (R26) and the entries of the key tables (R74 to R76). Pure functions. -/

namespace Sys2Proof.Machine

/-- The vector of the values of `f`. -/
def tabulate {α : Type} (n : Nat) (f : Fin n → α) : Vector α n := ⟨((List.finRange n).map f).toArray, by simp⟩

/-- `x` with bit `k` set to `v`. -/
def putBit {w : Nat} (x : BitVec w) (k : Nat) (v : Bool) : BitVec w :=
  if v then x ||| BitVec.twoPow w k else x &&& ~~~BitVec.twoPow w k

/-! ## Bus results (20_memory R44, 30_encoding R73) -/

/-- A NAND register value zero-extended to the access size. -/
def nandResult (v : Byte) : Word := v.setWidth 32

/-- An expander register value zero-extended to the access size. A 1-byte access is narrower than the register: its
eight bits are the register's low byte (R42), and what stands above them the spec does not say. -/
def expResult (sz : Size) (off : Byte) (v : Half) : Word :=
  match sz with
  | .b1 => (Config.narrowHigh off v ++ v.setWidth 8 : Half).setWidth 32
  | .b2 | .b4 => v.setWidth 32

/-! ## Lines (R13) -/

/-- `STROBE[c]`. -/
def strobeLine (c : Fin 11) : Line := ⟨c.val, by omega⟩

/-- `SENSE[r]`. -/
def senseLine (r : Fin 7) : Line := ⟨11 + r.val, by omega⟩

/-- `SPECIAL[col]`: remote-control, sync, power, lid, tablet-mode. -/
def specialLine (col : Fin 5) : Line := ⟨18 + col.val, by omega⟩

/-- `TP_INT`. -/
def tpIntLine : Line := 23

/-- `SLOT0_CD`. -/
def slot0CdLine : Line := 24

/-- `SLOT0_IRQ`. -/
def slot0IrqLine : Line := 25

/-- `SLOT1_CD`. -/
def slot1CdLine : Line := 26

/-- `SLOT1_IRQ`. -/
def slot1IrqLine : Line := 27

/-- `HSYNC`. -/
def hsyncLine : Line := 28

/-- `CS[i]`. -/
def csLine (i : Fin 3) : Line := ⟨29 + i.val, by omega⟩

/-- `EXPOUT[b]`. -/
def expoutLine (b : Fin 32) : Line := ⟨32 + b.val, by omega⟩

/-- The default handler of a line (R13, D5): `H_STROBE(c)` on STROBE[c], `H_CS(i)` on CS[i], `Ext[l]` elsewhere. -/
def defaultHandler (l : Line) : Handler :=
  if h : l.val < 11 then .strobe ⟨l.val, h⟩
  else if h : 29 ≤ l.val ∧ l.val < 32 then .cs ⟨l.val - 29, by omega⟩
  else .ext

/-- The default `WIRING` (D5). -/
def defaultWiring : Vector (Option Handler) 64 := tabulate 64 fun l => some (defaultHandler l)

/-! ## Modifier masks (R26) -/

/-- Bits of `Mod.live`. -/
def liveLshift : Nat := 0
def liveRshift : Nat := 1
def liveCtrl : Nat := 2
def liveAlt : Nat := 3

/-- Bits of `Mod.inj`; bit 1 is unused and always 0. -/
def injShift : Nat := 0
def injCtrl : Nat := 2
def injFn : Nat := 3
def injLrel : Nat := 4
def injRrel : Nat := 5

/-! ## Key codes and tables -/

/-- An event code (R74): `code = up ++ kc`. -/
def eventCode (up : Bool) (kc : BitVec 7) : Byte := BitVec.ofBool up ++ kc

/-- `code[7]`, the key-up flag of an event code. -/
def eventUp (code : Byte) : Bool := code.getLsbD 7

/-- `code[6:0]`, the keycode of an event code. -/
def eventKey (code : Byte) : BitVec 7 := code.setWidth 7

/-- The index of `REMAP` (R76): `idx = shift_any ++ kc`. -/
def remapIndex (shiftAny : Bool) (kc : BitVec 7) : Byte := BitVec.ofBool shiftAny ++ kc

/-- The default identity entry of an index (R76): `zext_10(idx)`. -/
def identityEntry (idx : Byte) : BitVec 10 := idx.setWidth 10

/-- `e[6:0]`, the keycode to present to the matrix (R76). -/
def entryTarget (e : BitVec 10) : BitVec 7 := e.setWidth 7

/-- `e[7]` (R76). -/
def entryNeedShift (e : BitVec 10) : Bool := e.getLsbD 7

/-- `e[8]` (R76). -/
def entryNeedCtrl (e : BitVec 10) : Bool := e.getLsbD 8

/-- `e[9]` (R76). -/
def entryNeedFn (e : BitVec 10) : Bool := e.getLsbD 9

/-- `KEYMAP[kc]` (R75). -/
def keyEntry (cfg : Config) (kc : BitVec 7) : KeyEntry := cfg.keymap.getD kc.toNat .unmapped

/-- `REMAP[idx]` (R76), identity by default. -/
def remapEntry (cfg : Config) (idx : Byte) : BitVec 10 := cfg.remap.getD idx.toNat (identityEntry idx)

/-- A `KEYMAP` entry from its serialised byte (R75): `row << 4 | col`, 0xFF for unmapped. -/
def keyEntryOfByte (b : Byte) : KeyEntry :=
  if b = 0xFF#8 then .unmapped else .cell (b.toNat / 16) (b.toNat % 16)

/-- Which bit of `Mod.live` a keycode stands for, `bit_of` of 46_key_synth R213; none for an ordinary key. -/
def modifierBit (cfg : Config) (kc : BitVec 7) : Option Nat :=
  if kc = cfg.kcLshift then some liveLshift
  else if kc = cfg.kcRshift then some liveRshift
  else if kc = cfg.kcCtrl then some liveCtrl
  else if kc = cfg.kcAlt then some liveAlt
  else none

end Sys2Proof.Machine
end

