-- ==== Sys2Proof/Machine/Flags.lean ====
section
/-! DEFINITION. The computations of the block's status-like values (10_state R31): the ready/busy bit, the forced bits
of power-control, the sense bit, the column parity and the ECC accumulators. Pure functions of bit vectors. -/

namespace Sys2Proof.Machine

/-- The bit positions that 30_encoding R70 states: bit 0 CE0, 1 CLE, 2 ALE, 3 WP, 4 CE1, 5 ready/busy. -/
def standardCtlBits : CtlBits where
  ce0 := 0
  cle := 1
  ale := 2
  wp := 3
  ce1 := 4
  rb := 5

/-- `RB_MASK`, the ready/busy position of the NAND control register (R70; 0x20 with its positions). -/
def rbMask (p : CtlBits) : Byte := BitVec.twoPow 8 p.rb.val

/-- The value of a control read (42_nand_ecc R116): the stored bits OR'd with the live pin. -/
def ctlReadValue (p : CtlBits) (ctl : Byte) (rb : Bool) : Byte := ctl ||| (if rb then rbMask p else 0x00#8)

/-- The value a control write stores (R119): the low eight bits, the ready/busy position forced to 0. -/
def ctlStoreValue (p : CtlBits) (v : Half) : Byte := v.setWidth 8 &&& ~~~rbMask p

/-- The value a power-control write stores (43_gpio_expander R154): bit 7 forces bits 6 and 15. -/
def powerStoreValue (v : Half) : Half := if v.getLsbD 7 then v ||| 0x8040#16 else v

/-- The externally visible level (10_state R20): requested level AND direction. -/
def visibleLevel (out dir : Word) : Word := out &&& dir

/-- One sense bit (45_key_matrix R192): the AND of the row's pressed mask with the strobe mask is non-zero. -/
def senseBit (pressedRow strobe : BitVec 11) : Bool := pressedRow &&& strobe != 0#11

/-- `COLPAR` of R121: six column parities and the parity of the whole byte. -/
def colparFormula (b : Byte) : BitVec 7 :=
  let p := fun (ks : List Nat) => BitVec.ofBool (ks.foldl (fun acc k => acc ^^ b.getLsbD k) false)
  p [0, 1, 2, 3, 4, 5, 6, 7] ++ p [4, 5, 6, 7] ++ p [0, 1, 2, 3] ++ p [2, 3, 6, 7] ++ p [0, 1, 4, 5]
    ++ p [1, 3, 5, 7] ++ p [0, 2, 4, 6]

/-- The 256-entry table of R121, from the formula. -/
def colparTable : Vector (BitVec 7) 256 := tabulate 256 fun n => colparFormula (BitVec.ofNat 8 n.val)

/-- The permutation that 30_encoding R71 states: `lp0` in the even positions, `lp1` in the odd ones; bits 7:4 in
line-parity-low, bits 3:0 in line-parity-high. -/
def standardReadback : EccReadback where
  even := .lp0
  low := #v[4, 4, 5, 5, 6, 6, 7, 7]
  high := #v[0, 0, 1, 1, 2, 2, 3, 3]

/-- A line-parity readback (R71, 42_nand_ecc R111, R112): position `k` shows bit `bits[k]` of the accumulator of its
parity. -/
def eccInterleave (even : Accumulator) (bits : Vector (Fin 8) 8) (lp0 lp1 : Byte) : Byte :=
  let first := match even with | .lp0 => lp0 | .lp1 => lp1
  let second := match even with | .lp0 => lp1 | .lp1 => lp0
  let bit := fun (x : Byte) (k : Fin 8) => BitVec.ofBool (x.getLsbD (bits.get k).val)
  bit second 7 ++ bit first 6 ++ bit second 5 ++ bit first 4 ++ bit second 3 ++ bit first 2 ++ bit second 1 ++ bit first 0

end Sys2Proof.Machine
end

