-- ==== Sys2Proof/Machine/Fixture.lean ====
section
/-! DEFINITION. The configuration of the state after reset: fixture TC1 of 95_test_vectors section 2, with the hints of
93_implementation_defined G12 and G15 for the tick rate and the bases. It is test data (log entry 6); every statement
quantifies over the configuration. -/

namespace Sys2Proof.Machine

/-- The 128 bytes of TC1's `KEYMAP`, keycode 0x00 first; keycodes 0x60 to 0x7F are unmapped. -/
def tc1KeymapBytes : List Nat :=
  [0xFF, 0x72, 0x01, 0x11, 0x02, 0x12, 0x03, 0x04, 0x05, 0x15, 0x06, 0x07, 0x53, 0xFF, 0x08, 0x20] ++
  [0x21, 0x31, 0x22, 0x13, 0x23, 0x14, 0x25, 0x16, 0x17, 0x18, 0xFF, 0xFF, 0x48, 0x00, 0x41, 0x32] ++
  [0x42, 0x33, 0x24, 0x35, 0x26, 0x27, 0x37, 0xFF, 0xFF, 0xFF, 0x49, 0xFF, 0x51, 0x52, 0x43, 0x34] ++
  [0x44, 0x45, 0x36, 0x55, 0x46, 0xFF, 0x39, 0x60, 0x5A, 0x54, 0xFF, 0x40, 0x30, 0x61, 0xFF, 0x09] ++
  [0x0A, 0x19, 0x1A, 0x71, 0x50, 0x63, 0xFF, 0x73, 0x57, 0x74, 0xFF, 0x66, 0xFF, 0x68, 0xFF, 0xFF] ++
  [0x67, 0xFF, 0x70, 0xFF, 0xFF, 0xFF, 0xFF, 0x64, 0x65, 0xFF, 0xFF, 0xFF, 0xFF, 0xFF, 0xFF, 0xFF] ++
  List.replicate 32 0xFF

/-- TC1's `REMAP`: identity but for five entries. -/
def tc1Remap : List (BitVec 10) :=
  (List.range 256).map fun idx =>
    match idx with
    | 0x27 => 0x222#10
    | 0xA7 => 0x223#10
    | 0x28 => 0x088#10
    | 0x0D => 0x212#10
    | 0x3B => 0x102#10
    | _ => BitVec.ofNat 10 idx

/-- Fixture TC1. -/
def tc1 : Config where
  nandBase := 0x0C000000
  expBase := 0x10800000
  addrBits := 32
  keymap := tc1KeymapBytes.map fun n => keyEntryOfByte (BitVec.ofNat 8 n)
  remap := tc1Remap
  kcLshift := 0x2A#7
  kcRshift := 0x36#7
  kcCtrl := 0x1D#7
  kcAlt := 0x38#7
  invert := List.replicate 5 false
  wiring := defaultWiring
  lineId := List.range 64
  tickHz := 32
  expStatusInit := 0x0000#16
  expIrrInit := 0x0000#16
  eccAttachClears := false
  hsyncOnExpStatusRead := false
  demuxMerge := .first
  chipFitted := Vector.replicate 3 true
  regs := standardMap
  ctlBits := standardCtlBits
  eccUpdate := .lineColumn
  eccReadback := standardReadback
  colpar := colparTable

end Sys2Proof.Machine
end

