-- ==== Sys2Proof/Machine/State.lean ====
section
/-! DEFINITION. The state of the block (10_state), the reasons a stimulus stops, and the state after reset. -/

namespace Sys2Proof.Machine

/-! ## The spec's state -/

/-- One line of the Signal Bus (10_state R12, 40_signal_bus R90). -/
structure SignalLine where
  /-- `Sig.level`, the last level stored. -/
  level : Bool
  /-- `Sig.disp`, the level at the previous dispatch. -/
  disp : Bool
  /-- `Sig.handler`. -/
  handler : Option Handler
deriving DecidableEq, Repr

/-- `EccState` (10_state R16). -/
structure Ecc where
  lp0 : Byte
  lp1 : Byte
  cp : Byte
  count : Half
deriving DecidableEq, Repr

/-- The expander's registers (10_state R18 to R20). -/
structure Expander where
  mode : Half
  cmddata : Half
  status : Half
  power : Half
  clock : Half
  irctl : Half
  irr : Half
  imask : Half
  istat : Half
  gpioDir : Word
  gpioOut : Word
  gpioPrev : Word
deriving DecidableEq, Repr

/-- `KeyMatrix` (10_state R24). -/
structure KeyMatrix where
  pressed : Vector (BitVec 11) 8
  strobe : BitVec 11
  sense : BitVec 7
deriving DecidableEq, Repr

/-- `ModifierState` (10_state R26). -/
structure Modifiers where
  live : BitVec 4
  inj : BitVec 6
deriving DecidableEq, Repr

/-- `SynthQueue` (10_state R28). -/
structure Queue where
  buf : Vector Byte 16
  head : BitVec 4
  len : BitVec 5
deriving DecidableEq, Repr

/-- `Life.phase` with `Life.tick` (10_state R30): only an attached block holds a scheduler handle. -/
inductive Life where
  | detached
  | attached (tick : Nat)
  | tornDown
deriving DecidableEq, Repr

/-! ## The model's own fields -/

/-- Which diff-dispatch loops are in progress (40_signal_bus R95, 60_exceptions R245); both false between stimuli. -/
structure Running where
  exp : Bool
  km : Bool
deriving DecidableEq, Repr

/-- The environment's answers still to come, oldest first (00_scope R5); an exhausted list is answered by a free value,
numbered by `draws`. -/
structure Env where
  flashBytes : List Byte
  flashReady : List Bool
  chipBytes : List Byte
  handles : List Nat
  draws : Nat
deriving DecidableEq, Repr

/-- The value a read stimulus returns (00_scope R6): of a bus read, of SIG.GET, of SSP.RD. -/
inductive Ret where
  | bus (sz : Size) (value : Word)
  | level (v : Bool)
  | byte (v : Byte)
deriving DecidableEq, Repr

/-- One observable event (00_scope R6): a call into the environment, or a returned value. -/
inductive Event where
  | ext (line : Line) (level : Bool)
  | flashSetPins (cle ale ce0 ce1 wp : Bool)
  | flashGetPins (rb : Bool)
  | flashSetIO (b : Byte)
  | flashGetIO (b : Byte)
  | chipWrite (i : Fin 3) (b : Byte)
  | chipRead (i : Fin 3) (b : Byte)
  | log (dev : Dev) (dir : Dir) (off : Byte)
  | schedule (tickHz : Nat) (handle : Nat)
  | cancel (handle : Nat)
  | ret (r : Ret)
deriving DecidableEq, Repr

/-! ## The state -/

/-- Everything the spec gives the block, then the model's own fields. -/
structure State where
  /-- The Signal Bus (R12). -/
  sig : Vector SignalLine 64
  /-- `Nand.ctl` (R15). -/
  nandCtl : Byte
  /-- `EccState` (R16). -/
  ecc : Ecc
  /-- The expander (R18 to R20). -/
  exp : Expander
  /-- `Hsync.phase` (R22). -/
  hsync : Bool
  /-- `Demux.sel` (R23). -/
  sel : Vector Bool 3
  /-- `KeyMatrix` (R24). -/
  km : KeyMatrix
  /-- `ModifierState` (R26). -/
  mods : Modifiers
  /-- `SynthQueue` (R28). -/
  queue : Queue
  /-- The lifecycle (R30). -/
  life : Life
  /-- The configuration (R32), which no stimulus writes. -/
  cfg : Config
  /-- Diff-dispatch loops in progress. -/
  running : Running
  /-- The environment's answers. -/
  env : Env
  /-- The stimuli still to come, in their total order (00_scope R3). -/
  input : List Stimulus
  /-- The observable trace, oldest event first (00_scope R6). -/
  trace : List Event
deriving DecidableEq, Repr

namespace State

def withSig (s : State) (x : Vector SignalLine 64) : State := { s with sig := x }
def withNandCtl (s : State) (x : Byte) : State := { s with nandCtl := x }
def withEcc (s : State) (x : Ecc) : State := { s with ecc := x }
def withExp (s : State) (x : Expander) : State := { s with exp := x }
def withHsync (s : State) (x : Bool) : State := { s with hsync := x }
def withSel (s : State) (x : Vector Bool 3) : State := { s with sel := x }
def withKm (s : State) (x : KeyMatrix) : State := { s with km := x }
def withMods (s : State) (x : Modifiers) : State := { s with mods := x }
def withQueue (s : State) (x : Queue) : State := { s with queue := x }
def withLife (s : State) (x : Life) : State := { s with life := x }
def withRunning (s : State) (x : Running) : State := { s with running := x }
def withEnv (s : State) (x : Env) : State := { s with env := x }
def withInput (s : State) (x : List Stimulus) : State := { s with input := x }
def withTrace (s : State) (x : List Event) : State := { s with trace := x }

end State

/-! ## Stops -/

/-- The checks of 70_reset_and_hazards R269, in its order (a) to (i). -/
inductive ConfigProblem where
  /-- (a) the register ranges overlap or wrap. -/
  | registerRanges
  /-- (b) `KEYMAP` has not 128 legal entries. -/
  | keymap
  /-- (c) `REMAP` has not 256 entries. -/
  | remap
  /-- (d) the four modifier keycodes are not pairwise distinct. -/
  | modifierKeys
  /-- (e) a modifier key is remapped. -/
  | modifierRemapped
  /-- (f) an internal handler is bound to two lines. -/
  | handlerTwice
  /-- (g) a device's input handler is bound to a line the device drives. -/
  | cyclicWiring
  /-- (h) the tick rate is 0. -/
  | tickRate
  /-- (i) `INVERT` has not five entries. -/
  | invert
deriving DecidableEq, Repr

/-- The device whose running loop was re-entered (60_exceptions R245). -/
inductive LoopDev where
  | expander
  | keyMatrix
deriving DecidableEq, Repr

/-- The faults of 60_exceptions R240; each ends the session. -/
inductive Fault where
  /-- Raised by `ATTACH` on an ill-formed configuration, before any environment call (R243). Safe: the spec says so. -/
  | configError (why : ConfigProblem)
  /-- Raised by the enqueue of `code` on a full queue (R244); a `KEY` makes no environment call (R210). Safe: the spec says so. -/
  | queueOverflow (code : Byte)
  /-- Raised by a handler chain that re-enters a running loop (R245), with the trace up to it: the calls that the stimulus
  made before are observed (00_scope R6, 60_exceptions R248). Safe: the spec says so. -/
  | reentry (dev : LoopDev) (seen : List Event)
deriving DecidableEq, Repr

/-- The fault codes of R240. -/
def Fault.code : Fault → Nat
  | .configError _ => 0x01
  | .queueOverflow _ => 0x02
  | .reentry _ _ => 0x03

/-- What the spec gives no meaning: the model has no step there. -/
inductive Refusal where
  /-- An instruction without a meaning yet. Safe. -/
  | notModelled (mnemonic : String)
  /-- The decoder's verdict on an invalid stimulus word (30_encoding R77). Safe: the block never sees such a word. -/
  | invalidWord (why : Invalid)
  /-- A register access at an address of neither block (20_memory R41). Safe: it is not a stimulus of this block. -/
  | unclaimedAddress (addr : Nat)
  /-- Any stimulus but `ATTACH` before attachment (10_state R30). Safe: the spec says a model refuses it. -/
  | notAttached
  /-- `ATTACH` of an attached block (70_reset_and_hazards R260). Safe: the spec says a model refuses it. -/
  | alreadyAttached
  /-- Any stimulus after `TEARDOWN` (R270, 10_state R30). Safe: the spec says a model refuses it. -/
  | tornDown
  /-- A dequeued keycode whose `KEYMAP` entry is none that `ATTACH` admits (93 U15). Safe: no attached block reaches it. -/
  | illFormedConfig
deriving DecidableEq, Repr

/-- The outcome of a stimulus. -/
abbrev Result := Host.Outcome State Fault Refusal

/-! ## Reset -/

namespace State

/-- A new block instance before its first `ATTACH` (70_reset_and_hazards R268), with its configuration. Nothing exists
yet: the values of the spec's elements are placeholders that no stimulus can read. -/
def detached (cfg : Config) : State where
  sig := Vector.replicate 64 ⟨false, false, none⟩
  nandCtl := 0x00#8
  ecc := ⟨0x00#8, 0x00#8, 0x00#8, 0x0000#16⟩
  exp :=
    { mode := 0#16, cmddata := 0#16, status := 0#16, power := 0#16, clock := 0#16, irctl := 0#16, irr := 0#16
      imask := 0#16, istat := 0#16, gpioDir := 0#32, gpioOut := 0#32, gpioPrev := 0#32 }
  hsync := false
  sel := Vector.replicate 3 false
  km := ⟨Vector.replicate 8 0#11, 0#11, 0#7⟩
  mods := ⟨0#4, 0#6⟩
  queue := ⟨Vector.replicate 16 0x00#8, 0#4, 0#5⟩
  life := .detached
  cfg := cfg
  running := ⟨false, false⟩
  env := ⟨[], [], [], [], 0⟩
  input := []
  trace := []

/-- The block right after reset: attachment with fixture TC1 (10_state section 10, 70_reset_and_hazards R260 to R267).
The ECC elements, the queue buffer and the handle have no value in the spec; log entries 4, 5 and 15. -/
def reset : State where
  sig := tabulate 64 fun l => ⟨false, false, tc1.wiring.get l⟩
  nandCtl := 0x00#8
  ecc := ⟨0x00#8, 0x00#8, 0x00#8, 0x0000#16⟩
  exp :=
    { mode := 0#16, cmddata := 0#16, status := tc1.expStatusInit, power := 0#16, clock := 0#16, irctl := 0#16
      irr := tc1.expIrrInit, imask := 0#16, istat := 0#16, gpioDir := 0#32, gpioOut := 0#32, gpioPrev := 0#32 }
  hsync := false
  sel := Vector.replicate 3 false
  km := ⟨Vector.replicate 8 0#11, 0#11, 0#7⟩
  mods := ⟨0#4, 0#6⟩
  queue := ⟨Vector.replicate 16 0x00#8, 0#4, 0#5⟩
  life := .attached 0
  cfg := tc1
  running := ⟨false, false⟩
  env := ⟨[], [], [], [], 0⟩
  input := []
  trace := [.schedule tc1.tickHz 0]

end State

end Sys2Proof.Machine
end

