-- ==== Sys2Proof/Machine/Ops.lean ====
section
/-! DEFINITION. The operations the stimuli share: sequencing, lines and dispatch (the block's only transfer of control,
60_exceptions R248, R249), the environment calls (00_scope R5), and the internal operations of the spec's rules. -/

namespace Sys2Proof.Machine

/-! ## Sequencing -/

/-- First `r`, then `k` on the state it leaves; a fault or a refusal ends the stimulus (60_exceptions R249), a `Reentry`
with the trace of the calls made so far (log entry 17). -/
def andThen (r : Result) (k : State → Result) : Result :=
  match r with
  | .next s => k s
  | .fault e => .fault e
  | .refused e => .refused e

/-- `f` for every element of the list, in its order, each to completion before the next. -/
def forEach {α : Type} (xs : List α) (f : α → State → Result) (s : State) : Result :=
  match xs with
  | [] => .next s
  | x :: rest => andThen (f x s) (forEach rest f)

/-- Every stimulus but `ATTACH` requires an attached block (10_state R30). -/
def whenAttached (s : State) (k : Result) : Result :=
  match s.life with
  | .attached _ => k
  | .detached => .refused .notAttached
  | .tornDown => .refused .tornDown

/-! ## The environment (00_scope R5, R6) -/

/-- One more observable event. -/
def emit (s : State) (e : Event) : State := s.withTrace (s.trace ++ [e])

/-- A read stimulus returns its value. -/
def returns (s : State) (r : Ret) : Result := .next (emit s (.ret r))

/-- The counter of free values advances by `n`. -/
def advanceDraws (s : State) (n : Nat) : State := s.withEnv { s.env with draws := s.env.draws + n }

/-- `Flash.getIO()`: the flash chip's next byte, and the state after the call. -/
def flashGetIO (s : State) : Byte × State :=
  match s.env.flashBytes with
  | b :: rest => (b, emit (s.withEnv { s.env with flashBytes := rest }) (.flashGetIO b))
  | [] => (Config.freeByte s.env.draws, emit (advanceDraws s 1) (.flashGetIO (Config.freeByte s.env.draws)))

/-- `Flash.getPins()`: the live ready/busy level, and the state after the call. -/
def flashGetPins (s : State) : Bool × State :=
  match s.env.flashReady with
  | rb :: rest => (rb, emit (s.withEnv { s.env with flashReady := rest }) (.flashGetPins rb))
  | [] => (Config.freeReady s.env.draws, emit (advanceDraws s 1) (.flashGetPins (Config.freeReady s.env.draws)))

/-- `Chip[i].read()`: the chip's byte, and the state after the call. An unfitted chip reads 0 (44_serial_demux R180). -/
def chipRead (i : Fin 3) (s : State) : Byte × State :=
  if s.cfg.chipFitted.get i then
    match s.env.chipBytes with
    | b :: rest => (b, emit (s.withEnv { s.env with chipBytes := rest }) (.chipRead i b))
    | [] => (Config.freeByte s.env.draws, emit (advanceDraws s 1) (.chipRead i (Config.freeByte s.env.draws)))
  else (0x00#8, emit s (.chipRead i 0x00#8))

/-- `Sched.scheduleRepeating`: the handle, and the state after the call (70_reset_and_hazards R267). -/
def scheduleRepeating (s : State) : Nat × State :=
  match s.env.handles with
  | h :: rest => (h, emit (s.withEnv { s.env with handles := rest }) (.schedule s.cfg.tickHz h))
  | [] =>
    (Config.freeHandle s.env.draws, emit (advanceDraws s 1) (.schedule s.cfg.tickHz (Config.freeHandle s.env.draws)))

/-! ## Lines -/

/-- The line `l`. -/
def lineAt (s : State) (l : Line) : SignalLine := s.sig.get l

/-- The line `l` replaced. -/
def setLine (s : State) (l : Line) (x : SignalLine) : State := s.withSig (s.sig.set l.val x l.isLt)

/-- `SigGet` (40_signal_bus R93). -/
def sigGet (l : Line) (s : State) : Bool := (lineAt s l).level

/-- `SigRegister` (40_signal_bus R91): the binding only, no dispatch. -/
def sigRegister (l : Line) (h : Handler) (s : State) : State := setLine s l { lineAt s l with handler := some h }

/-- `H_CS(i)` (44_serial_demux R181): `Demux.sel[i] <- not v`. -/
def hCs (i : Fin 3) (v : Bool) (s : State) : State := s.withSel (s.sel.set i.val (!v) i.isLt)

/-- The call of a line's handler (60_exceptions R248), the strobe handler given. -/
def callHandler (onStrobe : Fin 11 → Bool → State → Result) (h : Handler) (l : Line) (v : Bool) (s : State) : Result :=
  match h with
  | .strobe c => onStrobe c v s
  | .cs i => .next (hCs i v s)
  | .ext => .next (emit s (.ext l v))

/-- `SigSet` (40_signal_bus R92), the strobe handler given: store the level; on a change from the level of the previous
dispatch, consume the edge and call the handler. -/
def sigSetWith (onStrobe : Fin 11 → Bool → State → Result) (l : Line) (v : Bool) (s : State) : Result :=
  match (lineAt s l).handler with
  | none => .next (setLine s l { lineAt s l with level := v })
  | some h =>
    if v = (lineAt s l).disp then .next (setLine s l { lineAt s l with level := v })
    else callHandler onStrobe h l v (setLine s l { lineAt s l with level := v, disp := v })

/-! ## Key matrix (45_key_matrix) -/

/-- The strobe handler as a running sense recomputation meets it: a re-entry (60_exceptions R245). -/
def hStrobeReentry (_ : Fin 11) (_ : Bool) (s : State) : Result := .fault (.reentry .keyMatrix s.trace)

/-- The sense bit of row `r` under the present pressed and strobe state. -/
def rowSense (s : State) (r : Fin 7) : Bool := senseBit (s.km.pressed.get ⟨r.val, by omega⟩) s.km.strobe

/-- All seven sense bits under the present pressed and strobe state. -/
def senseNow (s : State) : BitVec 7 :=
  (List.finRange 7).foldl (fun acc r => putBit acc r.val (rowSense s r)) 0#7

/-- One row of the loop of R192: a `SigSet` only where the row's sense bit changed since the previous recomputation. -/
def senseRow (r : Fin 7) (s : State) : Result :=
  if rowSense s r = s.km.sense.getLsbD r.val then .next s
  else sigSetWith hStrobeReentry (senseLine r) (rowSense s r) s

/-- `KmRecompute` (R192): rows ascending, `Km.sense` stored once after the loop. Entered while it runs, a re-entry. -/
def kmRecompute (s : State) : Result :=
  if s.running.km then .fault (.reentry .keyMatrix s.trace)
  else
    andThen (forEach (List.finRange 7) senseRow (s.withRunning { s.running with km := true })) fun t =>
      .next ((t.withKm { t.km with sense := senseNow t }).withRunning { t.running with km := false })

/-- `H_STROBE(c)` (R191). A write of `Km.strobe` while a sense recomputation runs is a re-entry (60_exceptions R245). -/
def hStrobe (c : Fin 11) (v : Bool) (s : State) : Result :=
  if s.running.km then .fault (.reentry .keyMatrix s.trace)
  else kmRecompute (s.withKm { s.km with strobe := putBit s.km.strobe c.val v })

/-- `SigSet` (40_signal_bus R92). -/
def sigSet (l : Line) (v : Bool) (s : State) : Result := sigSetWith hStrobe l v s

/-- `KeyCell` (R194): the cell follows the event, then the sense rows. -/
def keyCell (row : Fin 7) (col : Fin 11) (up : Bool) (s : State) : Result :=
  if s.running.km then .fault (.reentry .keyMatrix s.trace)
  else
    kmRecompute (s.withKm { s.km with
      pressed := s.km.pressed.set row.val (putBit (s.km.pressed.get ⟨row.val, by omega⟩) col.val (!up)) (by omega) })

/-- `KeySpecial` (R195): key-down asserts, key-up deasserts, XOR the line's inversion. -/
def keySpecial (col : Fin 5) (up : Bool) (s : State) : Result :=
  sigSet (specialLine col) ((!up) ^^ s.cfg.invert.getD col.val false) s

/-- `KeyApply` (R193): the matrix-update path of a dequeued event code. An unmapped keycode is dropped silently (R196). -/
def keyApply (code : Byte) (s : State) : Result :=
  match keyEntry s.cfg (eventKey code) with
  | .unmapped => .next s
  | .cell row col =>
    if h : row < 7 ∧ col < 11 then keyCell ⟨row, h.1⟩ ⟨col, h.2⟩ (eventUp code) s
    else if h : row = 7 ∧ col < 5 then keySpecial ⟨col, h.2⟩ (eventUp code) s
    else .refused .illFormedConfig

/-! ## Expander (43_gpio_expander) -/

/-- One lane of the loop of R165: a `SigSet` only where the visible level changed. -/
def expoutLane (diff new : Word) (b : Fin 32) (s : State) : Result :=
  if diff.getLsbD b.val then sigSet (expoutLine b) (new.getLsbD b.val) s else .next s

/-- `ExpRecompute` (R165): the changed visible bits dispatched low to high, `Exp.gpio_prev` stored once after the loop.
Entered while it runs, a re-entry (60_exceptions R245). -/
def expRecompute (s : State) : Result :=
  if s.running.exp then .fault (.reentry .expander s.trace)
  else
    let new := visibleLevel s.exp.gpioOut s.exp.gpioDir
    let diff := s.exp.gpioPrev ^^^ new
    andThen (forEach (List.finRange 32) (expoutLane diff new) (s.withRunning { s.running with exp := true })) fun t =>
      .next ((t.withExp { t.exp with gpioPrev := new }).withRunning { t.running with exp := false })

/-- The horizontal-sync notification (R170): flip the phase, drive the line to it. -/
def hsyncFlip (s : State) : Result := sigSet hsyncLine (!s.hsync) (s.withHsync (!s.hsync))

/-! ## ECC (42_nand_ecc) -/

/-- `COLPAR` as configured (R121). -/
def colpar (cfg : Config) (b : Byte) : BitVec 7 := cfg.colpar.get b.toFin

/-- The part of the counter that is visible (R114, 10_state R17): its low byte, all that a readback or an accumulator update
may depend on. -/
def visibleCount (e : Ecc) : Byte := e.count.setWidth 8

/-- The accumulators `(lp0, lp1, cp)` after one byte under the update of R120, the column-parity function given. -/
def lineColumn (i : BitVec 7) (e : Ecc) : Byte × Byte × Byte :=
  let n := visibleCount e
  (if i.getLsbD 6 then e.lp0 ^^^ ~~~n else e.lp0, if i.getLsbD 6 then e.lp1 ^^^ n else e.lp1,
    e.cp ^^^ (i.setWidth 6).setWidth 8)

/-- The accumulators after byte `b` under the configured `ECC_DIGEST` (R120, R122). -/
def accumulate (cfg : Config) (b : Byte) (e : Ecc) : Byte × Byte × Byte :=
  match cfg.eccUpdate with
  | .lineColumn => lineColumn (colpar cfg b) e
  | .other => Config.eccOther b (visibleCount e) e.lp0 e.lp1 e.cp

/-- The ECC state after byte `b` (R120): the accumulators, and the counter incremented once. -/
def digest (cfg : Config) (b : Byte) (e : Ecc) : Ecc :=
  let a := accumulate cfg b e
  ⟨a.1, a.2.1, a.2.2, e.count + 1#16⟩

/-- `EccDigest(b)` (R120): the byte unchanged, and the state with the ECC elements updated. -/
def eccDigest (b : Byte) (s : State) : Byte × State := (b, s.withEcc (digest s.cfg b s.ecc))

/-- The cleared ECC state (R117). -/
def eccZero : Ecc := ⟨0x00#8, 0x00#8, 0x00#8, 0x0000#16⟩

/-! ## Register dispatch (41_register_dispatch) -/

/-- Unknown-offset read (R103): one log record, returns 0. -/
def unknownRead (dev : Dev) (sz : Size) (off : Byte) (s : State) : Result :=
  returns (emit s (.log dev .read off)) (.bus sz 0#32)

/-- Unknown-offset write (R104): one log record, no effect. -/
def unknownWrite (dev : Dev) (off : Byte) (s : State) : Result := .next (emit s (.log dev .write off))

/-- A recognised NAND register read returns the register's value (R101). -/
def nandReturns (sz : Size) (v : Byte) (s : State) : Result := returns s (.bus sz (nandResult v))

/-- A recognised expander register read returns the register's value (R101); `off` is the register's offset in
30_encoding R67, which names the register to the free value of a narrow read (log entry 8). -/
def expReturns (sz : Size) (off : Byte) (v : Half) (s : State) : Result := returns s (.bus sz (expResult sz off v))

/-! ## Serial demultiplexer (44_serial_demux) -/

/-- The chips whose select is asserted, ascending (R182, R183). -/
def selectedChips (s : State) : List (Fin 3) := (List.finRange 3).filter fun i => s.sel.get i

/-- The reads of R183: every chip of the list is called, in order; the bytes returned, and the state after. -/
def chipReads (is : List (Fin 3)) (s : State) : List Byte × State :=
  match is with
  | [] => ([], s)
  | i :: rest =>
    let r := chipRead i s
    let q := chipReads rest r.2
    (r.1 :: q.1, q.2)

/-- The value of a serial read from the bytes returned (R183, 93 U3), and the state after. -/
def mergeReads (bs : List Byte) (s : State) : Byte × State :=
  match bs with
  | [] => (0x00#8, s)
  | [b] => (b, s)
  | b :: _ =>
    match s.cfg.demuxMerge with
    | .first => (b, s)
    | .anyValue => (Config.freeByte s.env.draws, advanceDraws s 1)

/-! ## Synthesizer (46_key_synth) -/

/-- `Enqueue(code)` (R218): at the position after the last pending entry, or a fault when the queue is full. -/
def enqueue (code : Byte) (s : State) : Result :=
  if s.queue.len = 16#5 then .fault (.queueOverflow code)
  else
    .next (s.withQueue { s.queue with
      buf := s.queue.buf.set ((s.queue.head.toNat + s.queue.len.toNat) % 16) code (by omega)
      len := s.queue.len + 1#5 })

/-- A bit of `Mod.live` (10_state R26). -/
def isLive (s : State) (k : Nat) : Bool := s.mods.live.getLsbD k

/-- A bit of `Mod.inj` (10_state R26). -/
def isInjected (s : State) (k : Nat) : Bool := s.mods.inj.getLsbD k

/-- The "any shift held" bit of R211. -/
def shiftAny (s : State) : Bool := isLive s liveLshift || isLive s liveRshift

/-- One injection of R214: enqueue the synthetic code and mark the modifier as injected. -/
def injectIf (wanted : State → Bool) (code : Byte) (k : Nat) (s : State) : Result :=
  if wanted s then
    andThen (enqueue code s) fun t => .next (t.withMods { t.mods with inj := putBit t.mods.inj k true })
  else .next s

/-- `Inject(e)` (R214): shift, control, function, then the complementary shift releases, left before right. -/
def inject (e : BitVec 10) (s : State) : Result :=
  andThen (injectIf (fun t => entryNeedShift e && !isLive t liveLshift && !isLive t liveRshift && !isInjected t injShift)
    (eventCode false s.cfg.kcLshift) injShift s) fun s1 =>
  andThen (injectIf (fun t => entryNeedCtrl e && !isLive t liveCtrl && !isInjected t injCtrl)
    (eventCode false s1.cfg.kcCtrl) injCtrl s1) fun s2 =>
  andThen (injectIf (fun t => entryNeedFn e && !isLive t liveAlt && !isInjected t injFn)
    (eventCode false s2.cfg.kcAlt) injFn s2) fun s3 =>
  andThen (injectIf (fun t => entryNeedFn e && isLive t liveLshift && !isInjected t injLrel)
    (eventCode true s3.cfg.kcLshift) injLrel s3) fun s4 =>
  injectIf (fun t => entryNeedFn e && isLive t liveRshift && !isInjected t injRrel)
    (eventCode true s4.cfg.kcRshift) injRrel s4

/-- One release of R215: enqueue the code if it is owed. -/
def releaseIf (owed : Bool) (code : Byte) (s : State) : Result := if owed then enqueue code s else .next s

/-- `Release()` (R215): key-ups of the injected modifiers the user does not hold, key-downs of the released shifts the
user still holds, then the injected mask is cleared. -/
def release (s : State) : Result :=
  andThen (releaseIf (isInjected s injShift && !isLive s liveLshift) (eventCode true s.cfg.kcLshift) s) fun s1 =>
  andThen (releaseIf (isInjected s1 injCtrl && !isLive s1 liveCtrl) (eventCode true s1.cfg.kcCtrl) s1) fun s2 =>
  andThen (releaseIf (isInjected s2 injFn && !isLive s2 liveAlt) (eventCode true s2.cfg.kcAlt) s2) fun s3 =>
  andThen (releaseIf (isInjected s3 injLrel && isLive s3 liveLshift) (eventCode false s3.cfg.kcLshift) s3) fun s4 =>
  andThen (releaseIf (isInjected s4 injRrel && isLive s4 liveRshift) (eventCode false s4.cfg.kcRshift) s4) fun s5 =>
  .next (s5.withMods { s5.mods with inj := 0#6 })

/-- `KEY kc, up` (R210): the five steps in their order. -/
def keyEvent (kc : BitVec 7) (up : Bool) (s : State) : Result :=
  let idx := remapIndex (shiftAny s) kc
  let e := remapEntry s.cfg idx
  let middle :=
    match modifierBit s.cfg kc with
    | some k => .next (s.withMods { s.mods with live := putBit s.mods.live k (!up) })
    | none =>
      if up then release s
      else if e = identityEntry idx then .next s
      else inject e s
  andThen middle (enqueue (eventCode up (entryTarget e)))

/-- `TICK` (R220): the oldest pending code leaves the queue and is then applied; an empty queue does nothing. -/
def tickOnce (s : State) : Result :=
  if s.queue.len = 0#5 then .next s
  else
    keyApply (s.queue.buf.get s.queue.head.toFin)
      (s.withQueue { s.queue with head := s.queue.head + 1#4, len := s.queue.len - 1#5 })

end Sys2Proof.Machine
end

