-- ==== Sys2Proof/Machine/Expander.lean ====
section
/-! DEFINITION. The GPIO expander and the horizontal-sync shim (43_gpio_expander), and the accesses of the expander's
block that no register recognises. -/

namespace Sys2Proof.Machine

/-- EXP.RD.MODE (R140). -/
def execExpRdMode (sz : Size) (s : State) : Result := whenAttached s (expReturns sz 0x00#8 s.exp.mode s)

/-- EXP.RD.CMDDATA (R141). -/
def execExpRdCmddata (sz : Size) (s : State) : Result := whenAttached s (expReturns sz 0x04#8 s.exp.cmddata s)

/-- EXP.RD.STATUS (R142): the constant; with `HSYNC_ON_EXP_STATUS_READ` the notification of R170 comes first. -/
def execExpRdStatus (sz : Size) (s : State) : Result :=
  whenAttached s
    (andThen (if s.cfg.hsyncOnExpStatusRead then hsyncFlip s else .next s) fun t =>
      expReturns sz 0x08#8 t.exp.status t)

/-- EXP.RD.POWER (R143): the quirk was applied when the value was written. -/
def execExpRdPower (sz : Size) (s : State) : Result := whenAttached s (expReturns sz 0x0C#8 s.exp.power s)

/-- EXP.RD.CLOCK (R144). -/
def execExpRdClock (sz : Size) (s : State) : Result := whenAttached s (expReturns sz 0x10#8 s.exp.clock s)

/-- EXP.RD.IRR (R145): the constant, not the value written to IR-control. -/
def execExpRdIrr (sz : Size) (s : State) : Result := whenAttached s (expReturns sz 0x14#8 s.exp.irr s)

/-- EXP.RD.IMASK (R146). -/
def execExpRdImask (sz : Size) (s : State) : Result := whenAttached s (expReturns sz 0x18#8 s.exp.imask s)

/-- EXP.RD.ISTAT (R147). -/
def execExpRdIstat (sz : Size) (s : State) : Result := whenAttached s (expReturns sz 0x1C#8 s.exp.istat s)

/-- EXP.RD.GPDIR (R148). -/
def execExpRdGpdir (sz : Size) (s : State) : Result :=
  whenAttached s (expReturns sz 0x20#8 (s.exp.gpioDir.setWidth 16) s)

/-- EXP.RD.GPOUT (R149): the requested level, not masked. -/
def execExpRdGpout (sz : Size) (s : State) : Result :=
  whenAttached s (expReturns sz 0x24#8 (s.exp.gpioOut.setWidth 16) s)

/-- EXP.RD.GPRB (R150): the externally visible level. -/
def execExpRdGprb (sz : Size) (s : State) : Result :=
  whenAttached s (expReturns sz 0x28#8 ((visibleLevel s.exp.gpioOut s.exp.gpioDir).setWidth 16) s)

/-- EXP.RD.UNKNOWN (41_register_dispatch R103). -/
def execExpRdUnknown (sz : Size) (off : Byte) (s : State) : Result := whenAttached s (unknownRead .exp sz off s)

/-- EXP.WR.MODE (R151). -/
def execExpWrMode (_ : Size) (data : Half) (s : State) : Result :=
  whenAttached s (.next (s.withExp { s.exp with mode := data }))

/-- EXP.WR.CMDDATA (R152). -/
def execExpWrCmddata (_ : Size) (data : Half) (s : State) : Result :=
  whenAttached s (.next (s.withExp { s.exp with cmddata := data }))

/-- EXP.WR.STATUS (41_register_dispatch R104): the write of a read-only register. -/
def execExpWrStatus (_ : Size) (_ : Half) (s : State) : Result := whenAttached s (unknownWrite .exp s.cfg.regs.exp.status s)

/-- EXP.WR.POWER (R154): bit 7 of the value written forces bits 6 and 15. -/
def execExpWrPower (_ : Size) (data : Half) (s : State) : Result :=
  whenAttached s (.next (s.withExp { s.exp with power := powerStoreValue data }))

/-- EXP.WR.CLOCK (R153). -/
def execExpWrClock (_ : Size) (data : Half) (s : State) : Result :=
  whenAttached s (.next (s.withExp { s.exp with clock := data }))

/-- EXP.WR.IRCTL (R155): stored, read by no rule. -/
def execExpWrIrctl (_ : Size) (data : Half) (s : State) : Result :=
  whenAttached s (.next (s.withExp { s.exp with irctl := data }))

/-- EXP.WR.IMASK (R156): stored, masks nothing (60_exceptions R246). -/
def execExpWrImask (_ : Size) (data : Half) (s : State) : Result :=
  whenAttached s (.next (s.withExp { s.exp with imask := data }))

/-- EXP.WR.ISTAT (R159): stored, clears nothing. -/
def execExpWrIstat (_ : Size) (data : Half) (s : State) : Result :=
  whenAttached s (.next (s.withExp { s.exp with istat := data }))

/-- EXP.WR.GPDIR (R157): the direction, then the recomputation of R165. -/
def execExpWrGpdir (_ : Size) (data : Half) (s : State) : Result :=
  whenAttached s (expRecompute (s.withExp { s.exp with gpioDir := data.setWidth 32 }))

/-- EXP.WR.GPOUT (R158): the requested level, unmasked, then the recomputation of R165. -/
def execExpWrGpout (_ : Size) (data : Half) (s : State) : Result :=
  whenAttached s (expRecompute (s.withExp { s.exp with gpioOut := data.setWidth 32 }))

/-- EXP.WR.GPRB (41_register_dispatch R104): the write of a readback register. -/
def execExpWrGprb (_ : Size) (_ : Half) (s : State) : Result := whenAttached s (unknownWrite .exp s.cfg.regs.exp.gprb s)

/-- EXP.WR.UNKNOWN (41_register_dispatch R104). -/
def execExpWrUnknown (_ : Size) (off : Byte) (_ : Half) (s : State) : Result :=
  whenAttached s (unknownWrite .exp off s)

/-- HSYNC.NOTIFY (R170). -/
def execHsyncNotify (s : State) : Result := whenAttached s (hsyncFlip s)

end Sys2Proof.Machine
end

