-- ==== Sys2Proof/Machine/Keys.lean ====
section
/-! DEFINITION. The key synthesizer as stimuli (46_key_synth). -/

namespace Sys2Proof.Machine

/-- KEY.DOWN (R210). -/
def execKeyDown (kc : BitVec 7) (s : State) : Result := whenAttached s (keyEvent kc false s)

/-- KEY.UP (R210). -/
def execKeyUp (kc : BitVec 7) (s : State) : Result := whenAttached s (keyEvent kc true s)

/-- TICK (R220). -/
def execTick (s : State) : Result := whenAttached s (tickOnce s)

end Sys2Proof.Machine
end

