-- ==== Sys2Proof/Machine/Lifecycle.lean ====
section
/-! DEFINITION. Attachment and teardown (70_reset_and_hazards): the configuration checks of R269, the state `ATTACH`
creates, and the two stimuli. -/

namespace Sys2Proof.Machine

/-! ## The checks of R269 -/

/-- (a) The two register ranges do not overlap and do not wrap. -/
def rangesOk (c : Config) : Bool :=
  c.nandBase + span ≤ 2 ^ c.addrBits && c.expBase + span ≤ 2 ^ c.addrBits &&
    (c.nandBase + span ≤ c.expBase || c.expBase + span ≤ c.nandBase)

/-- A legal `KEYMAP` entry (30_encoding R75). -/
def keyEntryOk : KeyEntry → Bool
  | .unmapped => true
  | .cell row col => (row < 7 && col < 11) || (row == 7 && col < 5)

/-- (b) `KEYMAP` has 128 legal entries. -/
def keymapOk (c : Config) : Bool := c.keymap.length == 128 && c.keymap.all keyEntryOk

/-- (c) `REMAP` has 256 entries; that each has 10 bits is its type. -/
def remapOk (c : Config) : Bool := c.remap.length == 256

/-- The four modifier keycodes. -/
def modifierKeys (c : Config) : List (BitVec 7) := [c.kcLshift, c.kcRshift, c.kcCtrl, c.kcAlt]

/-- (d) The four modifier keycodes are pairwise distinct. -/
def modifierKeysOk (c : Config) : Bool := decide (modifierKeys c).Nodup

/-- (e) A modifier key keeps its keycode under both shift states. -/
def modifierTargetsOk (c : Config) : Bool :=
  (modifierKeys c).all fun kc =>
    entryTarget (remapEntry c (remapIndex false kc)) == kc && entryTarget (remapEntry c (remapIndex true kc)) == kc

/-- (f) No internal handler is bound to two lines. -/
def handlersOnceOk (c : Config) : Bool :=
  ((List.finRange 11).all fun k => c.wiring.toList.count (some (.strobe k)) ≤ 1) &&
    (List.finRange 3).all fun i => c.wiring.toList.count (some (.cs i)) ≤ 1

/-- A strobe handler, of any column. -/
def isStrobe : Option Handler → Bool
  | some (.strobe _) => true
  | _ => false

/-- (g) No strobe handler on a line the key matrix drives. -/
def wiringAcyclicOk (c : Config) : Bool :=
  ((List.finRange 7).all fun r => !isStrobe (c.wiring.get (senseLine r))) &&
    (List.finRange 5).all fun k => !isStrobe (c.wiring.get (specialLine k))

/-- (h) The tick rate is positive. -/
def tickRateOk (c : Config) : Bool := 0 < c.tickHz

/-- (i) `INVERT` has five entries. -/
def invertOk (c : Config) : Bool := c.invert.length == 5

/-- The first failing check in the order of R269. -/
def configProblem (c : Config) : Option ConfigProblem :=
  if !rangesOk c then some .registerRanges
  else if !keymapOk c then some .keymap
  else if !remapOk c then some .remap
  else if !modifierKeysOk c then some .modifierKeys
  else if !modifierTargetsOk c then some .modifierRemapped
  else if !handlersOnceOk c then some .handlerTwice
  else if !wiringAcyclicOk c then some .cyclicWiring
  else if !tickRateOk c then some .tickRate
  else if !invertOk c then some .invert
  else none

/-! ## Attachment -/

/-- The ECC elements after attachment (R262): zero under `ECC_ATTACH_CLEARS`, else free values from draw `n` on. -/
def attachedEcc (c : Config) (n : Nat) : Ecc :=
  if c.eccAttachClears then eccZero
  else ⟨Config.freeByte n, Config.freeByte (n + 1), Config.freeByte (n + 2), Config.freeCount (n + 3)⟩

/-- How many free values attachment takes: three accumulators, the counter, sixteen queue entries. -/
def attachDraws : Nat := 20

/-- Every state element as R261 to R266 create it. -/
def createElements (s : State) : State :=
  let n := s.env.draws
  advanceDraws
    { s with
      sig := tabulate 64 fun l => ⟨false, false, s.cfg.wiring.get l⟩
      nandCtl := 0x00#8
      ecc := attachedEcc s.cfg n
      exp :=
        { mode := 0#16, cmddata := 0#16, status := s.cfg.expStatusInit, power := 0#16, clock := 0#16, irctl := 0#16
          irr := s.cfg.expIrrInit, imask := 0#16, istat := 0#16, gpioDir := 0#32, gpioOut := 0#32, gpioPrev := 0#32 }
      hsync := false
      sel := Vector.replicate 3 false
      km := ⟨Vector.replicate 8 0#11, 0#11, 0#7⟩
      mods := ⟨0#4, 0#6⟩
      queue := ⟨tabulate 16 fun k => Config.freeByte (n + 4 + k.val), 0#4, 0#5⟩
      running := ⟨false, false⟩ }
    attachDraws

/-- ATTACH (R260): check, create, schedule the tick, attached. -/
def execAttach (s : State) : Result :=
  match s.life with
  | .attached _ => .refused .alreadyAttached
  | .tornDown => .refused .tornDown
  | .detached =>
    match configProblem s.cfg with
    | some why => .fault (.configError why)
    | none =>
      let h := scheduleRepeating (createElements s)
      .next (h.2.withLife (.attached h.1))

/-- TEARDOWN (R270): the tick cancelled once, nothing else. -/
def execTeardown (s : State) : Result :=
  match s.life with
  | .attached tick => .next ((emit s (.cancel tick)).withLife .tornDown)
  | .detached => .refused .notAttached
  | .tornDown => .refused .tornDown

end Sys2Proof.Machine
end

