-- ==== Sys2Proof/Machine/Nand.lean ====
section
/-! DEFINITION. The NAND + ECC controller (42_nand_ecc) and the accesses of its block that no register recognises. -/

namespace Sys2Proof.Machine

/-- NAND.RD.ECCLPL (R111): the upper halves of the accumulators, interleaved. -/
def execNandRdEcclpl (sz : Size) (s : State) : Result :=
  whenAttached s (nandReturns sz (eccInterleave s.cfg.eccReadback.even s.cfg.eccReadback.low s.ecc.lp0 s.ecc.lp1) s)

/-- NAND.RD.ECCLPU (R112): the lower halves of the accumulators, interleaved. -/
def execNandRdEcclpu (sz : Size) (s : State) : Result :=
  whenAttached s (nandReturns sz (eccInterleave s.cfg.eccReadback.even s.cfg.eccReadback.high s.ecc.lp0 s.ecc.lp1) s)

/-- NAND.RD.ECCCP (R113): the column parity, unchanged. -/
def execNandRdEcccp (sz : Size) (s : State) : Result := whenAttached s (nandReturns sz s.ecc.cp s)

/-- NAND.RD.ECCCNT (R114): the counter modulo 256. -/
def execNandRdEcccnt (sz : Size) (s : State) : Result := whenAttached s (nandReturns sz (visibleCount s.ecc) s)

/-- NAND.RD.ECCCLR (R103, 30_encoding R68): the read of a write-only register. -/
def execNandRdEccclr (sz : Size) (s : State) : Result := whenAttached s (unknownRead .nand sz s.cfg.regs.nand.eccclr s)

/-- NAND.RD.IO (R115): a byte from the flash chip, digested, returned unchanged. -/
def execNandRdIo (sz : Size) (s : State) : Result :=
  whenAttached s
    (let got := flashGetIO s
     let d := eccDigest got.1 got.2
     nandReturns sz d.1 d.2)

/-- NAND.RD.CTL (R116): the stored bits OR'd with the live ready/busy pin. -/
def execNandRdCtl (sz : Size) (s : State) : Result :=
  whenAttached s
    (let rb := flashGetPins s
     nandReturns sz (ctlReadValue s.cfg.ctlBits s.nandCtl rb.1) rb.2)

/-- NAND.RD.UNKNOWN (R103). -/
def execNandRdUnknown (sz : Size) (off : Byte) (s : State) : Result := whenAttached s (unknownRead .nand sz off s)

/-- NAND.WR.ECCLPL (R104): the write of a readback register. -/
def execNandWrEcclpl (_ : Size) (_ : Half) (s : State) : Result := whenAttached s (unknownWrite .nand s.cfg.regs.nand.ecclpl s)

/-- NAND.WR.ECCLPU (R104): the write of a readback register. -/
def execNandWrEcclpu (_ : Size) (_ : Half) (s : State) : Result := whenAttached s (unknownWrite .nand s.cfg.regs.nand.ecclpu s)

/-- NAND.WR.ECCCP (R104): the write of a readback register. -/
def execNandWrEcccp (_ : Size) (_ : Half) (s : State) : Result := whenAttached s (unknownWrite .nand s.cfg.regs.nand.eccp s)

/-- NAND.WR.ECCCNT (R104): the write of a readback register. -/
def execNandWrEcccnt (_ : Size) (_ : Half) (s : State) : Result := whenAttached s (unknownWrite .nand s.cfg.regs.nand.ecccnt s)

/-- NAND.WR.ECCCLR (R117): all four ECC elements to zero, the value ignored. -/
def execNandWrEccclr (_ : Size) (_ : Half) (s : State) : Result := whenAttached s (.next (s.withEcc eccZero))

/-- NAND.WR.IO (R118): the low byte digested, then forwarded unchanged to the flash chip. -/
def execNandWrIo (_ : Size) (data : Half) (s : State) : Result :=
  whenAttached s
    (let d := eccDigest (data.setWidth 8) s
     .next (emit d.2 (.flashSetIO d.1)))

/-- NAND.WR.CTL (R119): stored without the ready/busy bit, then the pins driven from the stored bits. -/
def execNandWrCtl (_ : Size) (data : Half) (s : State) : Result :=
  whenAttached s
    (let p := s.cfg.ctlBits
     let ctl := ctlStoreValue p data
     .next (emit (s.withNandCtl ctl)
       (.flashSetPins (ctl.getLsbD p.cle.val) (ctl.getLsbD p.ale.val) (ctl.getLsbD p.ce0.val) (ctl.getLsbD p.ce1.val)
         (ctl.getLsbD p.wp.val))))

/-- NAND.WR.UNKNOWN (R104). -/
def execNandWrUnknown (_ : Size) (off : Byte) (_ : Half) (s : State) : Result :=
  whenAttached s (unknownWrite .nand off s)

end Sys2Proof.Machine
end

