-- ==== Sys2Proof/Machine/Serial.lean ====
section
/-! DEFINITION. The Serial Bus Demultiplexer as stimuli (44_serial_demux). -/

namespace Sys2Proof.Machine

/-- SSP.RD (R183): every selected chip is read, in ascending order. -/
def execSspRd (s : State) : Result :=
  whenAttached s
    (let r := chipReads (selectedChips s) s
     let v := mergeReads r.1 r.2
     returns v.2 (.byte v.1))

/-- SSP.WR (R182): the byte to every selected chip, in ascending order. -/
def execSspWr (byte : Byte) (s : State) : Result :=
  whenAttached s (forEach (selectedChips s) (fun i t => .next (emit t (.chipWrite i byte))) s)

end Sys2Proof.Machine
end

