-- ==== Sys2Proof/Machine/SignalBus.lean ====
section
/-! DEFINITION. The Signal Bus as stimuli (40_signal_bus). -/

namespace Sys2Proof.Machine

/-- SIG.SET (R92). -/
def execSigSet (line : Line) (level : Bool) (s : State) : Result := whenAttached s (sigSet line level s)

/-- SIG.GET (R93). -/
def execSigGet (line : Line) (s : State) : Result := whenAttached s (returns s (.level (sigGet line s)))

/-- SIG.REG (R91). -/
def execSigReg (line : Line) (handler : Handler) (s : State) : Result :=
  whenAttached s (.next (sigRegister line handler s))

end Sys2Proof.Machine
end

