-- ==== Sys2Proof/Machine/Dispatch.lean ====
section
/-! DEFINITION. One arm per stimulus: its meaning. -/

namespace Sys2Proof.Machine

def exec (i : Instr) (s : State) : Host.Outcome State Fault Refusal :=
  match i with
  | .nandRdEcclpl sz => Sys2Proof.Machine.execNandRdEcclpl sz s
  | .nandRdEcclpu sz => Sys2Proof.Machine.execNandRdEcclpu sz s
  | .nandRdEcccp sz => Sys2Proof.Machine.execNandRdEcccp sz s
  | .nandRdEcccnt sz => Sys2Proof.Machine.execNandRdEcccnt sz s
  | .nandRdEccclr sz => Sys2Proof.Machine.execNandRdEccclr sz s
  | .nandRdIo sz => Sys2Proof.Machine.execNandRdIo sz s
  | .nandRdCtl sz => Sys2Proof.Machine.execNandRdCtl sz s
  | .expRdMode sz => Sys2Proof.Machine.execExpRdMode sz s
  | .expRdCmddata sz => Sys2Proof.Machine.execExpRdCmddata sz s
  | .expRdStatus sz => Sys2Proof.Machine.execExpRdStatus sz s
  | .expRdPower sz => Sys2Proof.Machine.execExpRdPower sz s
  | .expRdClock sz => Sys2Proof.Machine.execExpRdClock sz s
  | .expRdIrr sz => Sys2Proof.Machine.execExpRdIrr sz s
  | .expRdImask sz => Sys2Proof.Machine.execExpRdImask sz s
  | .expRdIstat sz => Sys2Proof.Machine.execExpRdIstat sz s
  | .expRdGpdir sz => Sys2Proof.Machine.execExpRdGpdir sz s
  | .expRdGpout sz => Sys2Proof.Machine.execExpRdGpout sz s
  | .expRdGprb sz => Sys2Proof.Machine.execExpRdGprb sz s
  | .nandRdUnknown sz off => Sys2Proof.Machine.execNandRdUnknown sz off s
  | .expRdUnknown sz off => Sys2Proof.Machine.execExpRdUnknown sz off s
  | .nandWrEcclpl sz data => Sys2Proof.Machine.execNandWrEcclpl sz data s
  | .nandWrEcclpu sz data => Sys2Proof.Machine.execNandWrEcclpu sz data s
  | .nandWrEcccp sz data => Sys2Proof.Machine.execNandWrEcccp sz data s
  | .nandWrEcccnt sz data => Sys2Proof.Machine.execNandWrEcccnt sz data s
  | .nandWrEccclr sz data => Sys2Proof.Machine.execNandWrEccclr sz data s
  | .nandWrIo sz data => Sys2Proof.Machine.execNandWrIo sz data s
  | .nandWrCtl sz data => Sys2Proof.Machine.execNandWrCtl sz data s
  | .expWrMode sz data => Sys2Proof.Machine.execExpWrMode sz data s
  | .expWrCmddata sz data => Sys2Proof.Machine.execExpWrCmddata sz data s
  | .expWrStatus sz data => Sys2Proof.Machine.execExpWrStatus sz data s
  | .expWrPower sz data => Sys2Proof.Machine.execExpWrPower sz data s
  | .expWrClock sz data => Sys2Proof.Machine.execExpWrClock sz data s
  | .expWrIrctl sz data => Sys2Proof.Machine.execExpWrIrctl sz data s
  | .expWrImask sz data => Sys2Proof.Machine.execExpWrImask sz data s
  | .expWrIstat sz data => Sys2Proof.Machine.execExpWrIstat sz data s
  | .expWrGpdir sz data => Sys2Proof.Machine.execExpWrGpdir sz data s
  | .expWrGpout sz data => Sys2Proof.Machine.execExpWrGpout sz data s
  | .expWrGprb sz data => Sys2Proof.Machine.execExpWrGprb sz data s
  | .nandWrUnknown sz off data => Sys2Proof.Machine.execNandWrUnknown sz off data s
  | .expWrUnknown sz off data => Sys2Proof.Machine.execExpWrUnknown sz off data s
  | .sigSet line level => Sys2Proof.Machine.execSigSet line level s
  | .sigGet line => Sys2Proof.Machine.execSigGet line s
  | .sigReg line handler => Sys2Proof.Machine.execSigReg line handler s
  | .keyDown kc => Sys2Proof.Machine.execKeyDown kc s
  | .keyUp kc => Sys2Proof.Machine.execKeyUp kc s
  | .tick => Sys2Proof.Machine.execTick s
  | .sspRd => Sys2Proof.Machine.execSspRd s
  | .sspWr byte => Sys2Proof.Machine.execSspWr byte s
  | .hsyncNotify => Sys2Proof.Machine.execHsyncNotify s
  | .attach => Sys2Proof.Machine.execAttach s
  | .teardown => Sys2Proof.Machine.execTeardown s

end Sys2Proof.Machine
end

