-- ==== Sys2Proof/Machine/Fetch.lean ====
section
/-! DEFINITION. From a stimulus to the instruction it stands for: the decoder for a stimulus word, the Register Dispatch's
address decode for an access at a physical address (20_memory R41, 41_register_dispatch R101, R102). -/

namespace Sys2Proof.Machine

/-- The base address of a device (D6). -/
def baseOf (c : Config) : Dev → Nat
  | .nand => c.nandBase
  | .exp => c.expBase

/-- The device whose range contains the address, and the offset inside it (R41). -/
def decodeAddr (c : Config) (addr : Nat) : Option (Dev × Byte) :=
  if c.nandBase ≤ addr ∧ addr < c.nandBase + span then some (.nand, BitVec.ofNat 8 (addr - c.nandBase))
  else if c.expBase ≤ addr ∧ addr < c.expBase + span then some (.exp, BitVec.ofNat 8 (addr - c.expBase))
  else none

/-- The instruction of a stimulus, or the refusal of one that is none. Both forms look the offset up in the
configured register map (R101, R102; log entry 26). The data of a write are the low 16 bits of the bus value
(30_encoding R61). -/
def fetch (c : Config) : Stimulus → Except Refusal Instr
  | .word w =>
    match decodeWith c.regs w with
    | .ok i => .ok i
    | .error why => .error (.invalidWord why)
  | .memRead addr n =>
    match decodeAddr c addr with
    | some (dev, off) => .ok (readInstr c.regs dev n off)
    | none => .error (.unclaimedAddress addr)
  | .memWrite addr n v =>
    match decodeAddr c addr with
    | some (dev, off) => .ok (writeInstr c.regs dev n off (v.setWidth 16))
    | none => .error (.unclaimedAddress addr)

end Sys2Proof.Machine
end

