-- ==== Sys2Proof/Machine/Step.lean ====
section
/-! DEFINITION. One step: the next stimulus of the total order (00_scope R2, R3), run to completion. -/

namespace Sys2Proof.Machine

/-- The next stimulus leaves the input and is executed atomically (R2). With no stimulus pending nothing happens: the
block does nothing of its own accord. -/
def step (s : State) : Host.Outcome State Fault Refusal :=
  match s.input with
  | [] => .next s
  | x :: rest =>
    match fetch s.cfg x with
    | .ok i => exec i (s.withInput rest)
    | .error e => .refused e

/-- The stimulus word placed before every other pending stimulus, where `step` takes its next one. -/
def State.withFetchWord (s : State) (nbits w : Nat) : State :=
  s.withInput (.word (BitVec.ofNat 32 (w % 2 ^ nbits)) :: s.input)

end Sys2Proof.Machine
end

