-- ==== Sys2Proof/Safety.lean ====
section
/-! DEFINITION. What the statements say of a state: the invariants of the spec's own words, the wiring discipline, the
views a reader of the spec uses (the pending events as a list, R269 as a proposition). -/

namespace Sys2Proof.Machine

/-! ## Invariants -/

/-- The GPIO bank (10_state R20, R21): the previous visible level is the present one, and bits 31:16 are 0. -/
def GpioBankOk (s : State) : Prop :=
  s.exp.gpioPrev = s.exp.gpioOut &&& s.exp.gpioDir ∧
    s.exp.gpioDir.extractLsb' 16 16 = 0#16 ∧ s.exp.gpioOut.extractLsb' 16 16 = 0#16

/-- The key matrix (10_state R24, R25): a sense bit is set iff the row's pressed mask AND the strobe state is non-zero,
and the special row holds nothing. -/
def KeyMatrixOk (s : State) : Prop :=
  (∀ r : Fin 7, s.km.sense.getLsbD r.val = true ↔ s.km.pressed.get (r.castLE (by omega)) &&& s.km.strobe ≠ 0#11) ∧
    s.km.pressed.get 7 = 0#11

/-- The synthesizer (10_state R26, R29): at most 16 pending events, and the unused injected bit is 0. -/
def SynthesizerOk (s : State) : Prop := s.queue.len.toNat ≤ 16 ∧ s.mods.inj.getLsbD 1 = false

/-- The device registers (10_state R15, R18): the ready/busy position is never stored, and a stored power value with bit
7 has bits 6 and 15. -/
def RegistersOk (s : State) : Prop :=
  s.nandCtl.getLsbD s.cfg.ctlBits.rb.val = false ∧
    (s.exp.power.getLsbD 7 = true → s.exp.power.getLsbD 6 = true ∧ s.exp.power.getLsbD 15 = true)

/-- No diff-dispatch loop is in progress: the block is between two stimuli. -/
def LoopsIdle (s : State) : Prop := s.running.exp = false ∧ s.running.km = false

/-- The block is attached (10_state R30). -/
def Attached (s : State) : Prop := ∃ tick, s.life = .attached tick

/-- An attached block runs with a configuration that passed R269, and its read-only registers hold the configured
constants (10_state R19). -/
def SessionOk (s : State) : Prop :=
  Attached s → configProblem s.cfg = none ∧ s.exp.status = s.cfg.expStatusInit ∧ s.exp.irr = s.cfg.expIrrInit

/-! ## Wiring -/

/-- No SENSE line calls a strobe handler: the part of the acyclic wiring (70_reset_and_hazards R282) on which the sense
recomputation relies. -/
def SenseQuiet (s : State) : Prop := ∀ r : Fin 7, isStrobe (lineAt s (senseLine r)).handler = false

/-- A line with its external handler and no pending edge, at level `v` (70_reset_and_hazards R276: one driver, a handler
from the start). -/
def ExternalAt (s : State) (l : Line) (v : Bool) : Prop := lineAt s l = ⟨v, v, some .ext⟩

/-! ## The queue as a list -/

/-- The pending event codes, oldest first (10_state R28): the entry at position j is `Q.buf[(Q.head + j) mod 16]`. -/
def pending (q : Queue) : List Byte :=
  (List.range q.len.toNat).map fun j => q.buf.get ⟨(q.head.toNat + j) % 16, by omega⟩

/-! ## What a KEY stimulus enqueues (46_key_synth R210 to R217) -/

/-- The codes whose condition holds, in order. -/
def owed (xs : List (Bool × Byte)) : List Byte := (xs.filter fun x => x.1).map fun x => x.2

/-- The synthetic codes of R214, in its order. -/
def injectedCodes (c : Config) (m : Modifiers) (e : BitVec 10) : List Byte :=
  owed
    [(e.getLsbD 7 && !m.live.getLsbD 0 && !m.live.getLsbD 1 && !m.inj.getLsbD 0, 0#1 ++ c.kcLshift),
     (e.getLsbD 8 && !m.live.getLsbD 2 && !m.inj.getLsbD 2, 0#1 ++ c.kcCtrl),
     (e.getLsbD 9 && !m.live.getLsbD 3 && !m.inj.getLsbD 3, 0#1 ++ c.kcAlt),
     (e.getLsbD 9 && m.live.getLsbD 0 && !m.inj.getLsbD 4, 1#1 ++ c.kcLshift),
     (e.getLsbD 9 && m.live.getLsbD 1 && !m.inj.getLsbD 5, 1#1 ++ c.kcRshift)]

/-- The injected mask after R214: the bits 0, 2, 3, 4, 5 that its five conditions mark are added. -/
def injectedMask (m : Modifiers) (e : BitVec 10) : BitVec 6 :=
  let shift := e.getLsbD 7 && !m.live.getLsbD 0 && !m.live.getLsbD 1
  let ctrl := e.getLsbD 8 && !m.live.getLsbD 2
  let fn := e.getLsbD 9 && !m.live.getLsbD 3
  let lrel := e.getLsbD 9 && m.live.getLsbD 0
  let rrel := e.getLsbD 9 && m.live.getLsbD 1
  m.inj ||| (BitVec.ofBool rrel ++ BitVec.ofBool lrel ++ BitVec.ofBool fn ++ BitVec.ofBool ctrl ++ 0#1
    ++ BitVec.ofBool shift)

/-- The codes that R215 releases, in its order. -/
def releasedCodes (c : Config) (m : Modifiers) : List Byte :=
  owed
    [(m.inj.getLsbD 0 && !m.live.getLsbD 0, 1#1 ++ c.kcLshift),
     (m.inj.getLsbD 2 && !m.live.getLsbD 2, 1#1 ++ c.kcCtrl),
     (m.inj.getLsbD 3 && !m.live.getLsbD 3, 1#1 ++ c.kcAlt),
     (m.inj.getLsbD 4 && m.live.getLsbD 0, 0#1 ++ c.kcLshift),
     (m.inj.getLsbD 5 && m.live.getLsbD 1, 0#1 ++ c.kcRshift)]

/-- The event codes a KEY stimulus enqueues, oldest first, and the modifier state it leaves (R210): the synthetics of a
remapped key-down or the releases of a key-up, then the primary event. -/
def keyOutcome (c : Config) (m : Modifiers) (kc : BitVec 7) (up : Bool) : List Byte × Modifiers :=
  let idx : Byte := BitVec.ofBool (m.live.getLsbD 0 || m.live.getLsbD 1) ++ kc
  let e := c.remap.getD idx.toNat (idx.setWidth 10)
  let primary : Byte := BitVec.ofBool up ++ e.extractLsb' 0 7
  let follow (k : Nat) : Modifiers := { m with live := if up then m.live &&& ~~~BitVec.twoPow 4 k else m.live ||| BitVec.twoPow 4 k }
  if kc = c.kcLshift then ([primary], follow 0)
  else if kc = c.kcRshift then ([primary], follow 1)
  else if kc = c.kcCtrl then ([primary], follow 2)
  else if kc = c.kcAlt then ([primary], follow 3)
  else if up then (releasedCodes c m ++ [primary], { m with inj := 0#6 })
  else if e = idx.setWidth 10 then ([primary], m)
  else (injectedCodes c m e ++ [primary], { m with inj := injectedMask m e })

/-! ## One byte through the ECC engine (42_nand_ecc R120) -/

/-- The step from `e` to `e'` for a byte whose column parity is `i`, bit by bit. -/
structure DigestStep (i : BitVec 7) (e e' : Ecc) : Prop where
  column : ∀ k, k < 6 → e'.cp.getLsbD k = (e.cp.getLsbD k ^^ i.getLsbD k)
  columnHigh : ∀ k, 6 ≤ k → e'.cp.getLsbD k = e.cp.getLsbD k
  oddLp0 : i.getLsbD 6 = true → ∀ k, k < 8 → e'.lp0.getLsbD k = (e.lp0.getLsbD k ^^ !e.count.getLsbD k)
  oddLp1 : i.getLsbD 6 = true → ∀ k, k < 8 → e'.lp1.getLsbD k = (e.lp1.getLsbD k ^^ e.count.getLsbD k)
  even : i.getLsbD 6 = false → e'.lp0 = e.lp0 ∧ e'.lp1 = e.lp1
  counted : e'.count.toNat = (e.count.toNat + 1) % 2 ^ 16

/-- The step from `e` to `e'` for byte `b` under a configuration (R120, R122): the counter counts the byte, and the
accumulators follow the configured update, to which only the counter's low byte is visible (R114). -/
structure EccStep (c : Config) (b : Byte) (e e' : Ecc) : Prop where
  standard : c.eccUpdate = .lineColumn → DigestStep (c.colpar.get b.toFin) e e'
  other : c.eccUpdate = .other → (e'.lp0, e'.lp1, e'.cp) =
    Config.eccOther b (e.count.extractLsb' 0 8) e.lp0 e.lp1 e.cp
  counted : e'.count.toNat = (e.count.toNat + 1) % 2 ^ 16

/-- `t` is `s` but for the counter's bits above bit 7, which no rule makes visible (R114, 10_state R17). -/
def SameVisibleCount (s t : State) : Prop :=
  t = s.withEcc { s.ecc with count := t.ecc.count } ∧
    t.ecc.count.extractLsb' 0 8 = s.ecc.count.extractLsb' 0 8

/-- The two outcomes are the same but for the counter's bits above bit 7 in a next state. -/
def SameVisibleOutcome : Result → Result → Prop
  | .next s, .next t => SameVisibleCount s t
  | .fault e, .fault f => e = f
  | .refused e, .refused f => e = f
  | _, _ => False

/-- The accumulator bit at position `k` of a line-parity readback (30_encoding R71) whose positions show the bits
`bits`. -/
def readbackBit (p : EccReadback) (bits : Vector (Fin 8) 8) (e : Ecc) (k : Fin 8) : Bool :=
  let evenAcc := match p.even with | .lp0 => e.lp0 | .lp1 => e.lp1
  let oddAcc := match p.even with | .lp0 => e.lp1 | .lp1 => e.lp0
  (if k.val % 2 = 0 then evenAcc else oddAcc).getLsbD (bits.get k).val

/-! ## The register map (30_encoding R66, R67) -/

/-- The offsets of the registers of a device, in the order of its table. -/
def offsetsOf (m : RegisterMap) : Dev → List Byte
  | .nand =>
    let n := m.nand
    [n.ecclpl, n.ecclpu, n.eccp, n.ecccnt, n.eccclr, n.io, n.ctl]
  | .exp =>
    let e := m.exp
    [e.mode, e.cmddata, e.status, e.power, e.clock, e.irctl, e.imask, e.istat, e.gpdir, e.gpout, e.gprb]

/-- The reads of a device's registers, in the order of its table. -/
def readsOf (sz : Size) : Dev → List Instr
  | .nand =>
    [.nandRdEcclpl sz, .nandRdEcclpu sz, .nandRdEcccp sz, .nandRdEcccnt sz, .nandRdEccclr sz, .nandRdIo sz, .nandRdCtl sz]
  | .exp =>
    [.expRdMode sz, .expRdCmddata sz, .expRdStatus sz, .expRdPower sz, .expRdClock sz, .expRdIrr sz, .expRdImask sz,
      .expRdIstat sz, .expRdGpdir sz, .expRdGpout sz, .expRdGprb sz]

/-- The writes of a device's registers, in the order of its table. -/
def writesOf (sz : Size) (data : Half) : Dev → List Instr
  | .nand =>
    [.nandWrEcclpl sz data, .nandWrEcclpu sz data, .nandWrEcccp sz data, .nandWrEcccnt sz data, .nandWrEccclr sz data,
      .nandWrIo sz data, .nandWrCtl sz data]
  | .exp =>
    [.expWrMode sz data, .expWrCmddata sz data, .expWrStatus sz data, .expWrPower sz data, .expWrClock sz data,
      .expWrIrctl sz data, .expWrImask sz data, .expWrIstat sz data, .expWrGpdir sz data, .expWrGpout sz data,
      .expWrGprb sz data]

/-- The stimuli that can dispatch a handler (60_exceptions R240, R246): those that set a line, and a status read that is
configured to notify (43_gpio_expander R142). -/
def Dispatches (c : Config) (i : Instr) : Prop :=
  (∃ l v, i = .sigSet l v) ∨ (∃ sz d, i = .expWrGpdir sz d ∨ i = .expWrGpout sz d) ∨ i = .tick ∨ i = .hsyncNotify ∨
    ((∃ sz, i = .expRdStatus sz) ∧ c.hsyncOnExpStatusRead = true)

/-- A byte moved through the NAND I/O register: written by the CPU, or supplied by the flash chip to a read (R118,
R115). -/
inductive Transfer where
  | put (sz : Size) (data : Half)
  | get (sz : Size) (b : Byte)
deriving DecidableEq, Repr

/-- The byte of a transfer: the low eight bits of a written value, the flash chip's answer of a read. -/
def Transfer.byte : Transfer → Byte
  | .put _ data => data.setWidth 8
  | .get _ b => b

/-- The transfer as a stimulus, the flash chip supplying the byte of a read. -/
def Transfer.run (x : Transfer) (s : State) : Result :=
  match x with
  | .put sz data => exec (.nandWrIo sz data) s
  | .get sz b => exec (.nandRdIo sz) (s.withEnv { s.env with flashBytes := b :: s.env.flashBytes })

/-- Transfers one after the other. -/
def runTransfers (xs : List Transfer) (s : State) : Result := forEach xs Transfer.run s

/-! ## Words of 30_encoding R60 to R64, as numbers -/

/-- The size code of R61. -/
def sizeCode : Size → Nat
  | .b1 => 0
  | .b2 => 1
  | .b4 => 2

/-- A BUS word (R61) from its fields. -/
def busFields (cls blk : Nat) (sz : Size) (off data : Nat) : Word :=
  BitVec.ofNat 32 (cls * 2 ^ 28 + blk * 2 ^ 26 + sizeCode sz * 2 ^ 24 + off * 2 ^ 16 + data)

/-- `w[hi:lo]` as a number. -/
def wordField (w : Word) (hi lo : Nat) : Nat := w.toNat / 2 ^ lo % 2 ^ (hi + 1 - lo)

/-- The `invalid` stimulus words of R77. -/
def InvalidWord (w : Word) : Prop :=
  let cls := wordField w 31 28
  let hid := wordField w 23 16
  12 ≤ cls ∨
    (cls ≤ 1 ∧ (2 ≤ wordField w 27 26 ∨ wordField w 25 24 = 3 ∨ 0x40 ≤ wordField w 23 16)) ∨
    (cls = 0 ∧ wordField w 15 0 ≠ 0) ∨
    (2 ≤ cls ∧ cls ≤ 4 ∧ 64 ≤ wordField w 15 0) ∨
    (cls = 2 ∧ wordField w 27 17 ≠ 0) ∨
    (cls = 3 ∧ wordField w 27 16 ≠ 0) ∨
    (cls = 4 ∧ (wordField w 27 24 ≠ 0 ∨ ¬(hid ≤ 0x0A ∨ (0x10 ≤ hid ∧ hid ≤ 0x12) ∨ hid = 0x80))) ∨
    ((cls = 5 ∨ cls = 8) ∧ wordField w 27 8 ≠ 0) ∨
    ((cls = 6 ∨ cls = 7 ∨ cls = 9 ∨ cls = 10 ∨ cls = 11) ∧ wordField w 27 0 ≠ 0)

/-! ## Reads and loops, as a reader of the spec sees them -/

/-- What a read of a 16-bit register of value `v` returns (20_memory R44): the value zero-extended; of a 1-byte access
the spec fixes the low byte only (log entry 8). -/
def ReturnsHalf (sz : Size) (v : Half) (w : Word) : Prop :=
  w.setWidth 8 = v.setWidth 8 ∧ w.toNat < 2 ^ 16 ∧ (sz ≠ .b1 → w = v.setWidth 32)

/-- The read `i` of a 16-bit register of value `v` completes: it returns that value and changes nothing else. -/
def ReadsRegister (i : Instr) (sz : Size) (v : Half) (s : State) : Prop :=
  ∃ w, ReturnsHalf sz v w ∧ exec i s = .next (emit s (.ret (.bus sz w)))

/-- The parity of a list of bits: whether an odd number of them is set. -/
def oddParity (xs : List Bool) : Bool := xs.foldl xor false

/-- The parity of the bits `ks` of a byte. -/
def bitParity (ks : List Nat) (b : Byte) : Bool := oddParity (ks.map fun k => b.getLsbD k)

/-- The byte that a bus read returned or that was sent to the flash chip. -/
def ioByte : Event → Option Byte
  | .flashSetIO b => some b
  | .ret (.bus _ w) => some (w.setWidth 8)
  | _ => none

/-- The bits of `x` that are set, ascending. -/
def setBits {w : Nat} (x : BitVec w) : List (Fin w) := (List.finRange w).filter fun b => x.getLsbD b.val

/-- The sense bit of row `r` for a pressed grid and a strobe state (10_state R25). -/
def sensed (pressed : Vector (BitVec 11) 8) (strobe : BitVec 11) (r : Fin 7) : Bool :=
  pressed.get (r.castLE (by omega)) &&& strobe != 0#11

/-- Every SENSE line has its external handler and stands at its sense bit. -/
def SenseExternal (s : State) : Prop := ∀ r : Fin 7, ExternalAt s (senseLine r) (s.km.sense.getLsbD r.val)

/-- Every EXPOUT line has its external handler and stands at its previous visible level. -/
def ExpoutExternal (s : State) : Prop := ∀ b : Fin 32, ExternalAt s (expoutLine b) (s.exp.gpioPrev.getLsbD b.val)

/-- What a nested dispatch may touch at all (40_signal_bus R92, 44_serial_demux R181, 45_key_matrix R191, R192): levels
and dispatched levels, the select flags, the strobe and sense bits, the trace, which only grows. All else is as in `s`. -/
structure DispatchFrame (s t : State) : Prop where
  handlers : ∀ l, (lineAt t l).handler = (lineAt s l).handler
  nandCtl : t.nandCtl = s.nandCtl
  ecc : t.ecc = s.ecc
  exp : t.exp = s.exp
  hsync : t.hsync = s.hsync
  pressed : t.km.pressed = s.km.pressed
  mods : t.mods = s.mods
  queue : t.queue = s.queue
  life : t.life = s.life
  cfg : t.cfg = s.cfg
  running : t.running = s.running
  env : t.env = s.env
  input : t.input = s.input
  trace : ∃ es, t.trace = s.trace ++ es

/-- The same fault on a state whose trace begins with `es`. -/
def faultAfter (es : List Event) : Fault → Fault
  | .reentry dev seen => .reentry dev (es ++ seen)
  | .configError why => .configError why
  | .queueOverflow code => .queueOverflow code

/-- The same outcome on a state whose trace begins with `es`. -/
def afterEvents (es : List Event) : Result → Result
  | .next t => .next (t.withTrace (es ++ t.trace))
  | .fault e => .fault (faultAfter es e)
  | .refused e => .refused e

/-! ## Configuration, in the words of R269 -/

/-- `WellFormed(cfg)`, checks (a) to (i) of R269. -/
structure WellFormedConfig (c : Config) : Prop where
  rangesFit : c.nandBase + 0x40 ≤ 2 ^ c.addrBits ∧ c.expBase + 0x40 ≤ 2 ^ c.addrBits
  rangesApart : c.nandBase + 0x40 ≤ c.expBase ∨ c.expBase + 0x40 ≤ c.nandBase
  keymapLength : c.keymap.length = 128
  keymapEntries : ∀ e ∈ c.keymap, ∀ row col, e = .cell row col → row ≤ 7 ∧ col ≤ 10 ∧ (row = 7 → col ≤ 4)
  remapLength : c.remap.length = 256
  modifiersDistinct : [c.kcLshift, c.kcRshift, c.kcCtrl, c.kcAlt].Nodup
  modifiersKept : ∀ kc ∈ [c.kcLshift, c.kcRshift, c.kcCtrl, c.kcAlt], ∀ shift : Bool,
    entryTarget (remapEntry c (remapIndex shift kc)) = kc
  handlerOnOneLine : ∀ l m h, h ≠ .ext → c.wiring.get l = some h → c.wiring.get m = some h → l = m
  senseNotStrobe : ∀ (r : Fin 7) k, c.wiring.get (senseLine r) ≠ some (.strobe k)
  specialNotStrobe : ∀ (j : Fin 5) k, c.wiring.get (specialLine j) ≠ some (.strobe k)
  ticks : 0 < c.tickHz
  invertLength : c.invert.length = 5

end Sys2Proof.Machine
end

