-- ==== Sys2Proof/Certificates/Slice0/Obligations.lean ====
section
/-! DEFINITION. The statements for the provers. Each docstring names the rules of spec/ it formalises; where a clause is the
model's own choice it names the log entry. -/

open Sys2Proof Sys2Proof.Machine

/-! ## One step, decoding -/

/-- 00_scope R2, R3, 41_register_dispatch R101, R102: the next stimulus word of the total order runs as the instruction it
decodes to under the configured register map, which is `decode` itself with the offsets of R66 and R67 (log entry 26); an
invalid word is refused by name; with no stimulus nothing happens (log entry 1). The last clause is the host's
`withFetchWord`. -/
def Obligations.StepRunsTheDecodedStimulus : Prop :=
  (∀ s : State, s.input = [] → step s = .next s) ∧
  (∀ (s : State) (w : Word) (rest : List Stimulus), s.input = .word w :: rest →
    (∀ i, decodeWith s.cfg.regs w = .ok i → step s = exec i (s.withInput rest)) ∧
    (∀ why, decodeWith s.cfg.regs w = .error why → step s = .refused (.invalidWord why))) ∧
  (∀ (s : State) (w : Word) (i : Instr), s.cfg.regs = standardMap → decode w = .ok i →
    step (s.withFetchWord 32 w.toNat) = exec i s) ∧
  ∀ (m : RegisterMap) (w : Word) (why : Invalid), decodeWith m w = .error why ↔ decode w = .error why

/-- 20_memory R41, 41_register_dispatch R101, R102: an access at a physical address is the access of the device whose
range holds the address, at the address minus the base; the data are the low 16 bits; an address of neither range is
refused. -/
def Obligations.StepRoutesBusAccessesByAddress : Prop :=
  ∀ (s : State) (rest : List Stimulus) (n : Size),
    (s.cfg.nandBase + 0x40 ≤ s.cfg.expBase ∨ s.cfg.expBase + 0x40 ≤ s.cfg.nandBase) →
    (∀ (dev : Dev) (off : Byte), off.toNat < 0x40 →
      (s.input = .memRead (baseOf s.cfg dev + off.toNat) n :: rest →
        step s = exec (readInstr s.cfg.regs dev n off) (s.withInput rest)) ∧
      (∀ v, s.input = .memWrite (baseOf s.cfg dev + off.toNat) n v :: rest →
        step s = exec (writeInstr s.cfg.regs dev n off (v.setWidth 16)) (s.withInput rest))) ∧
    (∀ addr, (∀ dev, addr < baseOf s.cfg dev ∨ baseOf s.cfg dev + 0x40 ≤ addr) →
      (s.input = .memRead addr n :: rest → step s = .refused (.unclaimedAddress addr)) ∧
      (∀ v, s.input = .memWrite addr n v :: rest → step s = .refused (.unclaimedAddress addr)))

/-- 30_encoding R66 to R68: with distinct offsets every register of a device is read and written at its own, any other
offset is an unknown-offset access; the offsets of the spec's tables are the standard map. That the offsets are a parameter
(92 D7, D8) is log entry 26. -/
def Obligations.RegistersAreFoundAtTheirOffsets : Prop :=
  (∀ (m : RegisterMap) (dev : Dev) (sz : Size) (data : Half), (offsetsOf m dev).Nodup →
    (offsetsOf m dev).map (readInstr m dev sz) = readsOf sz dev ∧
    (offsetsOf m dev).map (fun off => writeInstr m dev sz off data) = writesOf sz data dev) ∧
  (∀ (m : RegisterMap) (dev : Dev) (sz : Size) (data : Half) (off : Byte), off ∉ offsetsOf m dev →
    (readInstr m dev sz off = match dev with | .nand => .nandRdUnknown sz off | .exp => .expRdUnknown sz off) ∧
    (writeInstr m dev sz off data =
      match dev with | .nand => .nandWrUnknown sz off data | .exp => .expWrUnknown sz off data)) ∧
  offsetsOf standardMap .nand = (List.range 7).map (fun k => BitVec.ofNat 8 (4 * k)) ∧
  offsetsOf standardMap .exp = (List.range 11).map (fun k => BitVec.ofNat 8 (4 * k))

/-- Words written out in 95_test_vectors section 11, one or more of every class. -/
def Obligations.DecoderReadsTheSpecsWords : Prop :=
  decode 0x00000000#32 = .ok (.nandRdEcclpl .b1) ∧
  decode 0x02140000#32 = .ok (.nandRdIo .b4) ∧
  decode 0x003F0000#32 = .ok (.nandRdUnknown .b1 0x3F#8) ∧
  decode 0x05140000#32 = .ok (.expRdIrr .b2) ∧
  decode 0x10180005#32 = .ok (.nandWrCtl .b1 0x0005#16) ∧
  decode 0x151400AA#32 = .ok (.expWrIrctl .b2 0x00AA#16) ∧
  decode 0x1528FFFF#32 = .ok (.expWrGprb .b2 0xFFFF#16) ∧
  decode 0x20010004#32 = .ok (.sigSet 4 true) ∧
  decode 0x3000001C#32 = .ok (.sigGet 28) ∧
  decode 0x40100023#32 = .ok (.sigReg 35 (.cs 0)) ∧
  decode 0x50000027#32 = .ok (.keyDown 0x27#7) ∧
  decode 0x500000FF#32 = .ok (.keyUp 0x7F#7) ∧
  decode 0x60000000#32 = .ok .tick ∧
  decode 0x70000000#32 = .ok .sspRd ∧
  decode 0x800000A5#32 = .ok (.sspWr 0xA5#8) ∧
  decode 0x90000000#32 = .ok .hsyncNotify ∧
  decode 0xA0000000#32 = .ok .attach ∧
  decode 0xB0000000#32 = .ok .teardown ∧
  decode 0x00400000#32 = .error .offsetOutsideSpan ∧
  decode 0x20010040#32 = .error .lineOutsideCatalog ∧
  decode 0x400B0000#32 = .error .reservedHandler ∧
  decode 0xFFFFFFFF#32 = .error .reservedClass

/-- 30_encoding R60 to R69: decoding the word of any well-formed stimulus gives it back, with every operand at every
value. -/
def Obligations.EncodeThenDecodeIsIdentity : Prop :=
  ∀ i : Instr, i.wellFormed = true → decode (encode i) = .ok i

/-- 30_encoding R65: a word that decodes at all decodes to a well-formed stimulus whose word it is, so no word has two
meanings and no bit of a word is dropped. -/
def Obligations.DecodeThenEncodeIsIdentity : Prop :=
  ∀ (w : Word) (i : Instr), decode w = .ok i → i.wellFormed = true ∧ encode i = w

/-- 30_encoding R77: the words the decoder refuses, under any register map, are exactly the invalid stimulus words. -/
def Obligations.RefusedWordsAreTheInvalidOnes : Prop :=
  ∀ (m : RegisterMap) (w : Word), (∃ why, decodeWith m w = .error why) ↔ InvalidWord w

/-! ## Attachment, teardown, the lifecycle -/

/-- 10_state section 10, 70_reset_and_hazards R261 to R266: the values the spec gives for the state after attachment.
That the reset state is this one, with fixture TC1, is log entries 2 and 6. -/
def Obligations.ResetStateHoldsTheSpecsValues : Prop :=
  (∀ l, (lineAt State.reset l).level = false ∧ (lineAt State.reset l).disp = false) ∧
  (∀ c, (lineAt State.reset (strobeLine c)).handler = some (.strobe c)) ∧
  (∀ i, (lineAt State.reset (csLine i)).handler = some (.cs i)) ∧
  (∀ l : Line, 11 ≤ l.val → l.val < 29 ∨ 32 ≤ l.val → (lineAt State.reset l).handler = some .ext) ∧
  State.reset.nandCtl = 0x00#8 ∧
  State.reset.exp =
    { mode := 0#16, cmddata := 0#16, status := State.reset.cfg.expStatusInit, power := 0#16, clock := 0#16
      irctl := 0#16, irr := State.reset.cfg.expIrrInit, imask := 0#16, istat := 0#16, gpioDir := 0#32, gpioOut := 0#32
      gpioPrev := 0#32 } ∧
  State.reset.hsync = false ∧
  State.reset.sel = #v[false, false, false] ∧
  State.reset.km = ⟨#v[0#11, 0#11, 0#11, 0#11, 0#11, 0#11, 0#11, 0#11], 0#11, 0#7⟩ ∧
  State.reset.mods = ⟨0#4, 0#6⟩ ∧
  State.reset.queue.head = 0#4 ∧ State.reset.queue.len = 0#5 ∧ pending State.reset.queue = [] ∧
  Attached State.reset

/-- The invariants below hold of the state after reset. -/
def Obligations.ResetMeetsTheInvariants : Prop :=
  GpioBankOk State.reset ∧ KeyMatrixOk State.reset ∧ SynthesizerOk State.reset ∧ RegistersOk State.reset ∧
    SessionOk State.reset ∧ LoopsIdle State.reset ∧ SenseQuiet State.reset ∧ ExpoutExternal State.reset ∧
    SenseExternal State.reset

/-- 70_reset_and_hazards R260 to R267: with a well-formed configuration `ATTACH` completes, creates every element with
its value, makes the one scheduler call and invokes nothing else. The ECC elements are stated only where the spec gives
them a value, the queue buffer not at all. -/
def Obligations.AttachCreatesTheInitialState : Prop :=
  ∀ s : State, s.life = .detached → WellFormedConfig s.cfg →
    encode .attach = 0xA0000000#32 ∧
    ∃ t h, exec .attach s = .next t ∧ t.life = .attached h ∧
      (∀ h0 rest, s.env.handles = h0 :: rest → h = h0) ∧
      t.trace = s.trace ++ [.schedule s.cfg.tickHz h] ∧
      (∀ l, lineAt t l = ⟨false, false, s.cfg.wiring.get l⟩) ∧
      t.nandCtl = 0x00#8 ∧
      (s.cfg.eccAttachClears = true → t.ecc = ⟨0x00#8, 0x00#8, 0x00#8, 0x0000#16⟩) ∧
      t.exp =
        { mode := 0#16, cmddata := 0#16, status := s.cfg.expStatusInit, power := 0#16, clock := 0#16, irctl := 0#16
          irr := s.cfg.expIrrInit, imask := 0#16, istat := 0#16, gpioDir := 0#32, gpioOut := 0#32
          gpioPrev := 0#32 } ∧
      t.hsync = false ∧ (∀ i, t.sel.get i = false) ∧
      (∀ r, t.km.pressed.get r = 0#11) ∧ t.km.strobe = 0#11 ∧ t.km.sense = 0#7 ∧
      t.mods.live = 0#4 ∧ t.mods.inj = 0#6 ∧ t.queue.head = 0#4 ∧ t.queue.len = 0#5 ∧
      t.cfg = s.cfg ∧ t.input = s.input ∧ LoopsIdle t

/-- 70_reset_and_hazards R269: the checks of `ATTACH` admit exactly the well-formed configurations, and any other raises
`ConfigError`. Which reason it carries is log entry 14; the address width of check (a) is log entry 16, the whole-numbered
tick rate of check (h) log entry 20. -/
def Obligations.AttachAdmitsExactlyWellFormedConfigurations : Prop :=
  (∀ c : Config, configProblem c = none ↔ WellFormedConfig c) ∧
  ∀ s : State, s.life = .detached →
    (WellFormedConfig s.cfg → ∃ t, exec .attach s = .next t) ∧
    (¬ WellFormedConfig s.cfg → ∃ why, exec .attach s = .fault (.configError why))

/-- 10_state R30, 70_reset_and_hazards R260, R270: outside its phase every stimulus is refused, and only `ATTACH` and
`TEARDOWN` write the lifecycle. -/
def Obligations.OnlyAttachedBlocksTakeStimuli : Prop :=
  ∀ (i : Instr) (s : State),
    (s.life = .detached → i ≠ .attach → exec i s = .refused .notAttached) ∧
    (s.life = .tornDown → exec i s = .refused .tornDown) ∧
    (∀ h, s.life = .attached h → exec .attach s = .refused .alreadyAttached) ∧
    (∀ t, exec i s = .next t → i ≠ .attach → i ≠ .teardown → t.life = s.life)

/-- 70_reset_and_hazards R270: `TEARDOWN` cancels the tick once and does nothing else; after it no stimulus is
accepted. -/
def Obligations.TeardownCancelsTheTickOnce : Prop :=
  ∀ (s : State) (h : Nat), s.life = .attached h →
    encode .teardown = 0xB0000000#32 ∧
    ∃ t, exec .teardown s = .next t ∧ t = (s.withTrace (s.trace ++ [.cancel h])).withLife .tornDown ∧
      ∀ i, exec i t = .refused .tornDown

/-! ## NAND and ECC -/

/-- 42_nand_ecc R111 to R114: the four readback registers, as bits of the ECC state, which they leave as it is; the line
parities under any configured permutation, and written out for the one of 30_encoding R71 (log entry 26). -/
def Obligations.EccReadbackRegisters : Prop :=
  ∀ (sz : Size) (s : State), Attached s →
    (encode (.nandRdEcclpl sz) = busFields 0x0 0 sz 0x00 0 ∧ ∃ r : Byte,
      (∀ k : Fin 8, r.getLsbD k.val = readbackBit s.cfg.eccReadback s.cfg.eccReadback.low s.ecc k) ∧
      (s.cfg.eccReadback = standardReadback → ∀ k, k < 4 →
        r.getLsbD (2 * k) = s.ecc.lp0.getLsbD (4 + k) ∧ r.getLsbD (2 * k + 1) = s.ecc.lp1.getLsbD (4 + k)) ∧
      exec (.nandRdEcclpl sz) s = .next (emit s (.ret (.bus sz (r.setWidth 32))))) ∧
    (encode (.nandRdEcclpu sz) = busFields 0x0 0 sz 0x04 0 ∧ ∃ r : Byte,
      (∀ k : Fin 8, r.getLsbD k.val = readbackBit s.cfg.eccReadback s.cfg.eccReadback.high s.ecc k) ∧
      (s.cfg.eccReadback = standardReadback → ∀ k, k < 4 →
        r.getLsbD (2 * k) = s.ecc.lp0.getLsbD k ∧ r.getLsbD (2 * k + 1) = s.ecc.lp1.getLsbD k) ∧
      exec (.nandRdEcclpu sz) s = .next (emit s (.ret (.bus sz (r.setWidth 32))))) ∧
    (encode (.nandRdEcccp sz) = busFields 0x0 0 sz 0x08 0 ∧
      exec (.nandRdEcccp sz) s = .next (emit s (.ret (.bus sz (s.ecc.cp.setWidth 32))))) ∧
    (encode (.nandRdEcccnt sz) = busFields 0x0 0 sz 0x0C 0 ∧ ∃ r : Byte, r.toNat = s.ecc.count.toNat % 256 ∧
      exec (.nandRdEcccnt sz) s = .next (emit s (.ret (.bus sz (r.setWidth 32)))))

/-- 42_nand_ecc R116, R119: the control register. A read returns the stored bits OR'd with the live ready/busy pin, whose
level the environment answers (log entry 3); a write stores all bits but the ready/busy one and drives the pins from the
stored bits. The positions are the configured ones (log entry 26); those of 30_encoding R70 are written out last. -/
def Obligations.NandControlRegister : Prop :=
  ∀ (sz : Size) (data : Half) (s : State), Attached s →
    (encode (.nandRdCtl sz) = busFields 0x0 0 sz 0x18 0 ∧ ∃ rb env,
      (∀ b rest, s.env.flashReady = b :: rest → rb = b ∧ env = { s.env with flashReady := rest }) ∧
      (s.env.flashReady = [] → env = { s.env with draws := s.env.draws + 1 }) ∧
      exec (.nandRdCtl sz) s = .next ((s.withEnv env).withTrace (s.trace ++
        [.flashGetPins rb, .ret (.bus sz
          ((s.nandCtl ||| (if rb then BitVec.twoPow 8 s.cfg.ctlBits.rb.val else 0x00#8)).setWidth 32))]))) ∧
    (encode (.nandWrCtl sz data) = busFields 0x1 0 sz 0x18 data.toNat ∧ ∃ c : Byte,
      (∀ k, k < 8 → c.getLsbD k = (data.getLsbD k && k != s.cfg.ctlBits.rb.val)) ∧
      exec (.nandWrCtl sz data) s = .next ((s.withNandCtl c).withTrace (s.trace ++
        [.flashSetPins (c.getLsbD s.cfg.ctlBits.cle.val) (c.getLsbD s.cfg.ctlBits.ale.val)
          (c.getLsbD s.cfg.ctlBits.ce0.val) (c.getLsbD s.cfg.ctlBits.ce1.val) (c.getLsbD s.cfg.ctlBits.wp.val)]))) ∧
    (s.cfg.ctlBits = standardCtlBits → BitVec.twoPow 8 s.cfg.ctlBits.rb.val = 0x20#8 ∧ s.cfg.ctlBits.ce0.val = 0 ∧
      s.cfg.ctlBits.cle.val = 1 ∧ s.cfg.ctlBits.ale.val = 2 ∧ s.cfg.ctlBits.wp.val = 3 ∧ s.cfg.ctlBits.ce1.val = 4)

/-- 42_nand_ecc R117: the clear register zeroes the four ECC elements, whatever is written, and touches nothing else. -/
def Obligations.EccClearZeroesEverything : Prop :=
  ∀ (sz : Size) (data : Half) (s : State), Attached s →
    encode (.nandWrEccclr sz data) = busFields 0x1 0 sz 0x10 data.toNat ∧
    exec (.nandWrEccclr sz data) s = .next (s.withEcc ⟨0x00#8, 0x00#8, 0x00#8, 0x0000#16⟩)

/-- 42_nand_ecc R115, R118, R120: the I/O register moves one byte, unchanged, and digests it: on a read after the flash
chip supplied it (how it answers is log entry 3), on a write before it goes to the flash chip. Everything else is as before.
That the accumulator update is a parameter is log entry 19. -/
def Obligations.NandIoDigestsAndForwards : Prop :=
  ∀ (sz : Size) (data : Half) (s : State), Attached s →
    (encode (.nandRdIo sz) = busFields 0x0 0 sz 0x14 0 ∧ ∃ b env e,
      (∀ x rest, s.env.flashBytes = x :: rest → b = x ∧ env = { s.env with flashBytes := rest }) ∧
      (s.env.flashBytes = [] → env = { s.env with draws := s.env.draws + 1 }) ∧
      EccStep s.cfg b s.ecc e ∧
      exec (.nandRdIo sz) s = .next (((s.withEnv env).withEcc e).withTrace (s.trace ++
        [.flashGetIO b, .ret (.bus sz (b.setWidth 32))]))) ∧
    (encode (.nandWrIo sz data) = busFields 0x1 0 sz 0x14 data.toNat ∧ ∃ (b : Byte) (e : Ecc),
      b.toNat = data.toNat % 256 ∧
      EccStep s.cfg b s.ecc e ∧
      exec (.nandWrIo sz data) s = .next ((s.withEcc e).withTrace (s.trace ++ [.flashSetIO b])))

/-- 42_nand_ecc R114, 10_state R17: the counter's bits above bit 7 are visible nowhere. Two states that differ in them alone
have, under any stimulus and any configured digest, outcomes that differ in them alone: the same returned values, calls and
accumulators, the same fault or refusal. -/
def Obligations.CounterHighBitsAreNeverVisible : Prop :=
  (∀ (i : Instr) (s t : State), SameVisibleCount s t → SameVisibleOutcome (exec i s) (exec i t)) ∧
  ∀ s t : State, SameVisibleCount s t → SameVisibleOutcome (step s) (step t)

/-- 42_nand_ecc R121: the seven parities of the column-parity function, for all 256 bytes of the table. -/
def Obligations.ColumnParityTable : Prop :=
  ∀ b : Byte,
    let i := colparTable.get b.toFin
    i.getLsbD 0 = (b.getLsbD 0 ^^ b.getLsbD 2 ^^ b.getLsbD 4 ^^ b.getLsbD 6) ∧
    i.getLsbD 1 = (b.getLsbD 1 ^^ b.getLsbD 3 ^^ b.getLsbD 5 ^^ b.getLsbD 7) ∧
    i.getLsbD 2 = (b.getLsbD 0 ^^ b.getLsbD 1 ^^ b.getLsbD 4 ^^ b.getLsbD 5) ∧
    i.getLsbD 3 = (b.getLsbD 2 ^^ b.getLsbD 3 ^^ b.getLsbD 6 ^^ b.getLsbD 7) ∧
    i.getLsbD 4 = (b.getLsbD 0 ^^ b.getLsbD 1 ^^ b.getLsbD 2 ^^ b.getLsbD 3) ∧
    i.getLsbD 5 = (b.getLsbD 4 ^^ b.getLsbD 5 ^^ b.getLsbD 6 ^^ b.getLsbD 7) ∧
    i.getLsbD 6 = (b.getLsbD 0 ^^ b.getLsbD 1 ^^ b.getLsbD 2 ^^ b.getLsbD 3 ^^ b.getLsbD 4 ^^ b.getLsbD 5 ^^
      b.getLsbD 6 ^^ b.getLsbD 7)

/-- 42_nand_ecc R122: whatever the digest function, the ECC state after a clear and a sequence of transfers is a function
of the bytes alone, not of their direction, size or of any other state; and the bytes pass through unchanged. A read's byte
is supplied through the list of answers (log entry 3); the digest function is a parameter (log entry 19). -/
def Obligations.EccDependsOnlyOnTheBytes : Prop :=
  ∀ (xs ys : List Transfer) (s u : State) (sz sz' : Size) (d d' : Half),
    xs.map Transfer.byte = ys.map Transfer.byte → Attached s → Attached u → s.cfg.colpar = u.cfg.colpar →
    s.cfg.eccUpdate = u.cfg.eccUpdate →
    ∃ s0 s1 u0 u1 es,
      exec (.nandWrEccclr sz d) s = .next s0 ∧ runTransfers xs s0 = .next s1 ∧
      exec (.nandWrEccclr sz' d') u = .next u0 ∧ runTransfers ys u0 = .next u1 ∧
      s1.ecc = u1.ecc ∧
      s1.trace = s0.trace ++ es ∧ es.filterMap ioByte = xs.map Transfer.byte

/-- 42_nand_ecc R123, first part, a consequence the spec marks as derived: after a clear and at most 256 bytes the line
parities are the parities of the bytes with a given index bit, the column parities those of the bit columns. -/
def Obligations.EccStateIsLineAndColumnParity : Prop :=
  ∀ (bs : List Byte) (s : State), Attached s → s.cfg.colpar = colparTable → s.cfg.eccUpdate = .lineColumn →
    s.ecc = ⟨0x00#8, 0x00#8, 0x00#8, 0x0000#16⟩ → bs.length ≤ 256 →
    ∃ t, runTransfers (bs.map fun b => .put .b1 (b.setWidth 16)) s = .next t ∧
      (∀ k, k < 8 →
        t.ecc.lp1.getLsbD k =
          oddParity ((bs.zipIdx.filter fun p => p.2.testBit k).map fun p => bitParity (List.range 8) p.1) ∧
        t.ecc.lp0.getLsbD k =
          oddParity ((bs.zipIdx.filter fun p => !p.2.testBit k).map fun p => bitParity (List.range 8) p.1)) ∧
      t.ecc.cp.getLsbD 0 = oddParity (bs.map (bitParity [0, 2, 4, 6])) ∧
      t.ecc.cp.getLsbD 1 = oddParity (bs.map (bitParity [1, 3, 5, 7])) ∧
      t.ecc.cp.getLsbD 2 = oddParity (bs.map (bitParity [0, 1, 4, 5])) ∧
      t.ecc.cp.getLsbD 3 = oddParity (bs.map (bitParity [2, 3, 6, 7])) ∧
      t.ecc.cp.getLsbD 4 = oddParity (bs.map (bitParity [0, 1, 2, 3])) ∧
      t.ecc.cp.getLsbD 5 = oddParity (bs.map (bitParity [4, 5, 6, 7]))

/-- 42_nand_ecc R123, second part, a consequence the spec marks as derived: one wrong bit, bit `j` of byte
`pre.length`, is located by the XOR of the two ECC states. -/
def Obligations.SingleBitErrorIsLocated : Prop :=
  ∀ (pre post : List Byte) (b : Byte) (j : Fin 8) (s : State), Attached s → s.cfg.colpar = colparTable →
    s.cfg.eccUpdate = .lineColumn → s.ecc = ⟨0x00#8, 0x00#8, 0x00#8, 0x0000#16⟩ → pre.length + 1 + post.length ≤ 256 →
    ∃ t u,
      runTransfers ((pre ++ b :: post).map fun x => .put .b1 (x.setWidth 16)) s = .next t ∧
      runTransfers ((pre ++ (b ^^^ BitVec.twoPow 8 j.val) :: post).map fun x => .put .b1 (x.setWidth 16)) s = .next u ∧
      t.ecc.lp1 ^^^ u.ecc.lp1 = BitVec.ofNat 8 pre.length ∧
      t.ecc.lp0 ^^^ u.ecc.lp0 = ~~~BitVec.ofNat 8 pre.length ∧
      (t.ecc.cp ^^^ u.ecc.cp).getLsbD 5 = j.val.testBit 2 ∧
      (t.ecc.cp ^^^ u.ecc.cp).getLsbD 3 = j.val.testBit 1 ∧
      (t.ecc.cp ^^^ u.ecc.cp).getLsbD 1 = j.val.testBit 0

/-- 42_nand_ecc R125: every access to the NAND block of an attached controller completes. -/
def Obligations.NandAccessesAlwaysComplete : Prop :=
  ∀ (s : State) (sz : Size) (off : Byte) (data : Half), Attached s → off.toNat < 0x40 →
    (∃ t w, exec (readInstr s.cfg.regs .nand sz off) s = .next t ∧ t.trace.getLast? = some (.ret (.bus sz w))) ∧
    (∃ t, exec (writeInstr s.cfg.regs .nand sz off data) s = .next t)

/-! ## Register dispatch -/

/-- 41_register_dispatch R103, R104: an access that no register recognises, whichever way it got there, makes one log
record, returns 0 if it is a read, and does nothing else. The first clause says which offsets these are with the map of
30_encoding R66 and R67; a direction-unrecognised access logs its register's offset in the configured map (log entry 26). -/
def Obligations.UnrecognisedAccessesOnlyLog : Prop :=
  (∀ (dev : Dev) (sz : Size) (off : Byte) (data : Half), off.toNat < 0x40 →
    (off.toNat % 4 ≠ 0 ∨ (match dev with | .nand => 0x1C | .exp => 0x2C) ≤ off.toNat) →
    (readInstr standardMap dev sz off =
      match dev with | .nand => .nandRdUnknown sz off | .exp => .expRdUnknown sz off) ∧
    (writeInstr standardMap dev sz off data =
      match dev with | .nand => .nandWrUnknown sz off data | .exp => .expWrUnknown sz off data)) ∧
  ∀ (sz : Size) (off : Byte) (data : Half) (s : State), Attached s →
    let reads (dev : Dev) (o : Byte) : Result :=
      .next (s.withTrace (s.trace ++ [.log dev .read o, .ret (.bus sz 0#32)]))
    let writes (dev : Dev) (o : Byte) : Result := .next (s.withTrace (s.trace ++ [.log dev .write o]))
    exec (.nandRdEccclr sz) s = reads .nand s.cfg.regs.nand.eccclr ∧
    exec (.nandRdUnknown sz off) s = reads .nand off ∧
    exec (.expRdUnknown sz off) s = reads .exp off ∧
    exec (.nandWrUnknown sz off data) s = writes .nand off ∧
    exec (.expWrUnknown sz off data) s = writes .exp off ∧
    exec (.nandWrEcclpl sz data) s = writes .nand s.cfg.regs.nand.ecclpl ∧
    exec (.nandWrEcclpu sz data) s = writes .nand s.cfg.regs.nand.ecclpu ∧
    exec (.nandWrEcccp sz data) s = writes .nand s.cfg.regs.nand.eccp ∧
    exec (.nandWrEcccnt sz data) s = writes .nand s.cfg.regs.nand.ecccnt ∧
    exec (.expWrStatus sz data) s = writes .exp s.cfg.regs.exp.status ∧
    exec (.expWrGprb sz data) s = writes .exp s.cfg.regs.exp.gprb

/-- 41_register_dispatch R106, 00_scope R6: nothing the block does depends on what was recorded before, log records
among them, and every stimulus only adds to the trace, one that ends in `Reentry` too (log entry 17). -/
def Obligations.TraceIsNeverRead : Prop :=
  ∀ (i : Instr) (s : State),
    (∀ es : List Event, exec i (s.withTrace (es ++ s.trace)) = afterEvents es (exec i s)) ∧
    (∀ t, exec i s = .next t → ∃ es, t.trace = s.trace ++ es) ∧
    (∀ dev seen, exec i s = .fault (.reentry dev seen) → ∃ es, seen = s.trace ++ es)

/-! ## Expander -/

/-- 43_gpio_expander R140, R141, R143, R144, R146 to R150: each read returns its register, a GPIO register its window,
and changes nothing. What stands above bit 7 of a 1-byte read is free (log entry 8). -/
def Obligations.ExpanderRegisterReads : Prop :=
  ∀ (sz : Size) (s : State), Attached s →
    (encode (.expRdMode sz) = busFields 0x0 1 sz 0x00 0 ∧ ReadsRegister (.expRdMode sz) sz s.exp.mode s) ∧
    (encode (.expRdCmddata sz) = busFields 0x0 1 sz 0x04 0 ∧ ReadsRegister (.expRdCmddata sz) sz s.exp.cmddata s) ∧
    (encode (.expRdPower sz) = busFields 0x0 1 sz 0x0C 0 ∧ ReadsRegister (.expRdPower sz) sz s.exp.power s) ∧
    (encode (.expRdClock sz) = busFields 0x0 1 sz 0x10 0 ∧ ReadsRegister (.expRdClock sz) sz s.exp.clock s) ∧
    (encode (.expRdImask sz) = busFields 0x0 1 sz 0x18 0 ∧ ReadsRegister (.expRdImask sz) sz s.exp.imask s) ∧
    (encode (.expRdIstat sz) = busFields 0x0 1 sz 0x1C 0 ∧ ReadsRegister (.expRdIstat sz) sz s.exp.istat s) ∧
    (encode (.expRdGpdir sz) = busFields 0x0 1 sz 0x20 0 ∧
      ReadsRegister (.expRdGpdir sz) sz (s.exp.gpioDir.extractLsb' 0 16) s) ∧
    (encode (.expRdGpout sz) = busFields 0x0 1 sz 0x24 0 ∧
      ReadsRegister (.expRdGpout sz) sz (s.exp.gpioOut.extractLsb' 0 16) s) ∧
    (encode (.expRdGprb sz) = busFields 0x0 1 sz 0x28 0 ∧
      ReadsRegister (.expRdGprb sz) sz ((s.exp.gpioOut &&& s.exp.gpioDir).extractLsb' 0 16) s)

/-- 43_gpio_expander R142, R145: the two read-only registers return their configured constants, IRR whatever was written
to IR-control; with `HSYNC_ON_EXP_STATUS_READ` a status read first performs the notification of R170. -/
def Obligations.StatusAndIrrReadAsConstants : Prop :=
  ∀ (sz : Size) (s : State), Attached s → SessionOk s →
    (encode (.expRdIrr sz) = busFields 0x0 1 sz 0x14 0 ∧ ReadsRegister (.expRdIrr sz) sz s.cfg.expIrrInit s) ∧
    encode (.expRdStatus sz) = busFields 0x0 1 sz 0x08 0 ∧
    (s.cfg.hsyncOnExpStatusRead = false → ReadsRegister (.expRdStatus sz) sz s.cfg.expStatusInit s) ∧
    (s.cfg.hsyncOnExpStatusRead = true →
      (ExternalAt s hsyncLine s.hsync → ∃ m, exec .hsyncNotify s = .next m) ∧
      (∀ m, exec .hsyncNotify s = .next m →
        ∃ w, ReturnsHalf sz s.cfg.expStatusInit w ∧ exec (.expRdStatus sz) s = .next (emit m (.ret (.bus sz w)))) ∧
      (∀ e, exec .hsyncNotify s = .fault e → exec (.expRdStatus sz) s = .fault e))

/-- 43_gpio_expander R151 to R153, R155, R156, R159: each write stores its 16 bits in its own register and does nothing
else. -/
def Obligations.ExpanderStorageWrites : Prop :=
  ∀ (sz : Size) (data : Half) (s : State), Attached s →
    (encode (.expWrMode sz data) = busFields 0x1 1 sz 0x00 data.toNat ∧
      exec (.expWrMode sz data) s = .next (s.withExp { s.exp with mode := data })) ∧
    (encode (.expWrCmddata sz data) = busFields 0x1 1 sz 0x04 data.toNat ∧
      exec (.expWrCmddata sz data) s = .next (s.withExp { s.exp with cmddata := data })) ∧
    (encode (.expWrClock sz data) = busFields 0x1 1 sz 0x10 data.toNat ∧
      exec (.expWrClock sz data) s = .next (s.withExp { s.exp with clock := data })) ∧
    (encode (.expWrIrctl sz data) = busFields 0x1 1 sz 0x14 data.toNat ∧
      exec (.expWrIrctl sz data) s = .next (s.withExp { s.exp with irctl := data })) ∧
    (encode (.expWrImask sz data) = busFields 0x1 1 sz 0x18 data.toNat ∧
      exec (.expWrImask sz data) s = .next (s.withExp { s.exp with imask := data })) ∧
    (encode (.expWrIstat sz data) = busFields 0x1 1 sz 0x1C data.toNat ∧
      exec (.expWrIstat sz data) s = .next (s.withExp { s.exp with istat := data }))

/-- 43_gpio_expander R154: bit 7 of the written value forces bits 6 and 15; every other bit is stored as written. -/
def Obligations.PowerWriteForcesTwoBits : Prop :=
  ∀ (sz : Size) (data : Half) (s : State), Attached s →
    encode (.expWrPower sz data) = busFields 0x1 1 sz 0x0C data.toNat ∧
    ∃ v : Half, (∀ k, k < 16 → v.getLsbD k = (data.getLsbD k || (data.getLsbD 7 && (k == 6 || k == 15)))) ∧
      exec (.expWrPower sz data) s = .next (s.withExp { s.exp with power := v })

/-- 43_gpio_expander R157, R158, R165: a write of direction or level stores its value, then makes one `SigSet` for each
visible bit that changed, low to high, each run to completion before the next, and stores the visible level after the
loop. Nothing is assumed of the handlers. -/
def Obligations.GpioWritesDispatchChangedBits : Prop :=
  ∀ (sz : Size) (data : Half) (s : State), Attached s → LoopsIdle s →
    (encode (.expWrGpdir sz data) = busFields 0x1 1 sz 0x20 data.toNat ∧
      let new := s.exp.gpioOut &&& data.setWidth 32
      exec (.expWrGpdir sz data) s =
        andThen (forEach (setBits (s.exp.gpioPrev ^^^ new)) (fun b => sigSet (expoutLine b) (new.getLsbD b.val))
          ((s.withExp { s.exp with gpioDir := data.setWidth 32 }).withRunning ⟨true, false⟩))
          fun t => .next ((t.withExp { s.exp with gpioDir := data.setWidth 32, gpioPrev := new }).withRunning
            ⟨false, false⟩)) ∧
    (encode (.expWrGpout sz data) = busFields 0x1 1 sz 0x24 data.toNat ∧
      let new := data.setWidth 32 &&& s.exp.gpioDir
      exec (.expWrGpout sz data) s =
        andThen (forEach (setBits (s.exp.gpioPrev ^^^ new)) (fun b => sigSet (expoutLine b) (new.getLsbD b.val))
          ((s.withExp { s.exp with gpioOut := data.setWidth 32 }).withRunning ⟨true, false⟩))
          fun t => .next ((t.withExp { s.exp with gpioOut := data.setWidth 32, gpioPrev := new }).withRunning
            ⟨false, false⟩))

/-- 43_gpio_expander R157, R158, R171: whatever handlers the EXPOUT lines have, a GPIO write of a block between stimuli
with quiet SENSE wiring completes, and beyond the expander's own fields touches only what a dispatch may touch. -/
def Obligations.GpioWritesCompleteWithFrame : Prop :=
  ∀ (sz : Size) (data : Half) (s : State), Attached s → LoopsIdle s → SenseQuiet s →
    (∃ t, exec (.expWrGpdir sz data) s = .next t ∧
      DispatchFrame (s.withExp { s.exp with
        gpioDir := data.setWidth 32, gpioPrev := s.exp.gpioOut &&& data.setWidth 32 }) t) ∧
    (∃ t, exec (.expWrGpout sz data) s = .next t ∧
      DispatchFrame (s.withExp { s.exp with
        gpioOut := data.setWidth 32, gpioPrev := data.setWidth 32 &&& s.exp.gpioDir }) t)

/-- 43_gpio_expander R165, R166 under the discipline of 70_reset_and_hazards R276: with external handlers on the EXPOUT
lines and no other driver, the environment sees exactly the changed bits, low to high, every EXPOUT line ends at its
visible level, and no other line moves. -/
def Obligations.GpioWritesDriveExternalLinesLowToHigh : Prop :=
  ∀ (sz : Size) (data : Half) (s : State), Attached s → LoopsIdle s → ExpoutExternal s →
    (let new := s.exp.gpioOut &&& data.setWidth 32
      ∃ t, exec (.expWrGpdir sz data) s = .next t ∧
        t.exp = { s.exp with gpioDir := data.setWidth 32, gpioPrev := new } ∧ ExpoutExternal t ∧
        t.trace = s.trace ++
          (setBits (s.exp.gpioPrev ^^^ new)).map (fun b => .ext (expoutLine b) (new.getLsbD b.val)) ∧
        t = ((s.withSig t.sig).withExp t.exp).withTrace t.trace ∧ ∀ l : Line, l.val < 32 → lineAt t l = lineAt s l) ∧
    (let new := data.setWidth 32 &&& s.exp.gpioDir
      ∃ t, exec (.expWrGpout sz data) s = .next t ∧
        t.exp = { s.exp with gpioOut := data.setWidth 32, gpioPrev := new } ∧ ExpoutExternal t ∧
        t.trace = s.trace ++
          (setBits (s.exp.gpioPrev ^^^ new)).map (fun b => .ext (expoutLine b) (new.getLsbD b.val)) ∧
        t = ((s.withSig t.sig).withExp t.exp).withTrace t.trace ∧ ∀ l : Line, l.val < 32 → lineAt t l = lineAt s l)

/-- 43_gpio_expander R168, a consequence the spec marks as derived: direction then level, or level then direction, leave
the same state but for the trace, and every EXPOUT line at V AND D. -/
def Obligations.GpioFinalStateIsOrderIndependent : Prop :=
  ∀ (sz sz' : Size) (d v : Half) (s : State), Attached s → LoopsIdle s → ExpoutExternal s →
    ∃ a t b u,
      exec (.expWrGpdir sz d) s = .next a ∧ exec (.expWrGpout sz' v) a = .next t ∧
      exec (.expWrGpout sz' v) s = .next b ∧ exec (.expWrGpdir sz d) b = .next u ∧
      u.withTrace t.trace = t ∧ t.exp.gpioPrev = v.setWidth 32 &&& d.setWidth 32 ∧
      ∀ k : Fin 32, (lineAt t (expoutLine k)).level = ((v &&& d).setWidth 32 : Word).getLsbD k.val

/-- 43_gpio_expander R170: each notification flips the phase and drives HSYNC to it; with the external handler and no
other driver the handler is invoked every time. -/
def Obligations.HsyncNotifyTogglesTheLine : Prop :=
  ∀ s : State, Attached s →
    encode .hsyncNotify = 0x90000000#32 ∧
    exec .hsyncNotify s = exec (.sigSet hsyncLine (!s.hsync)) (s.withHsync (!s.hsync)) ∧
    (ExternalAt s hsyncLine s.hsync → ∃ t, exec .hsyncNotify s = .next t ∧
      t = (setLine (s.withHsync (!s.hsync)) hsyncLine ⟨!s.hsync, !s.hsync, some .ext⟩).withTrace
        (s.trace ++ [.ext hsyncLine (!s.hsync)]) ∧
      ExternalAt t hsyncLine t.hsync)

/-! ## Signal Bus -/

/-- 40_signal_bus R92, 44_serial_demux R181, 45_key_matrix R191: `SIG.SET` in each of its cases. Without a handler, or at the level of the
previous dispatch, it stores the level; otherwise it consumes the edge and calls the handler with the same line and
level. -/
def Obligations.SigSetStoresAndDispatches : Prop :=
  ∀ (l : Line) (v : Bool) (s : State), Attached s →
    encode (.sigSet l v) = BitVec.ofNat 32 (0x20000000 + v.toNat * 2 ^ 16 + l.val) ∧
    ((lineAt s l).handler = none ∨ v = (lineAt s l).disp →
      exec (.sigSet l v) s = .next (setLine s l { lineAt s l with level := v })) ∧
    (v ≠ (lineAt s l).disp →
      ((lineAt s l).handler = some .ext →
        exec (.sigSet l v) s = .next ((setLine s l ⟨v, v, some .ext⟩).withTrace (s.trace ++ [.ext l v]))) ∧
      (∀ i : Fin 3, (lineAt s l).handler = some (.cs i) →
        exec (.sigSet l v) s = .next ((setLine s l ⟨v, v, some (.cs i)⟩).withSel (s.sel.set i.val (!v)))) ∧
      (∀ c : Fin 11, (lineAt s l).handler = some (.strobe c) → s.running.km = false →
        ∃ mask : BitVec 11, (∀ k, k < 11 → mask.getLsbD k = if k = c.val then v else s.km.strobe.getLsbD k) ∧
          exec (.sigSet l v) s =
            kmRecompute ((setLine s l ⟨v, v, some (.strobe c)⟩).withKm { s.km with strobe := mask })))

/-- 40_signal_bus R92: between stimuli and with quiet SENSE wiring every `SIG.SET` completes, whatever the handler; the
line holds the level, and beyond lines, select flags, strobe, sense and trace nothing changes. -/
def Obligations.SigSetCompletesWithFrame : Prop :=
  ∀ (l : Line) (v : Bool) (s : State), Attached s → LoopsIdle s → SenseQuiet s →
    ∃ t, exec (.sigSet l v) s = .next t ∧ (lineAt t l).level = v ∧ DispatchFrame s t

/-- 40_signal_bus R90, R92 (a): a second `SIG.SET` of the same level changes nothing and calls nothing, in any state and
under any wiring. -/
def Obligations.RedundantSigSetDispatchesNothing : Prop :=
  ∀ (l : Line) (v : Bool) (s t : State), exec (.sigSet l v) s = .next t → exec (.sigSet l v) t = .next t

/-- 40_signal_bus R91, R93: `SIG.GET` returns the stored level, `SIG.REG` replaces the binding; neither does anything
else. -/
def Obligations.SigGetAndSigReg : Prop :=
  ∀ (l : Line) (h : Handler) (s : State), Attached s →
    (encode (.sigGet l) = BitVec.ofNat 32 (0x30000000 + l.val) ∧
      exec (.sigGet l) s = .next (emit s (.ret (.level (lineAt s l).level)))) ∧
    (encode (.sigReg l h) = BitVec.ofNat 32 (0x40000000 +
        (match h with | .strobe c => c.val | .cs i => 0x10 + i.val | .ext => 0x80) * 2 ^ 16 + l.val) ∧
      exec (.sigReg l h) s =
        .next (setLine s l ⟨(lineAt s l).level, (lineAt s l).disp, some h⟩))

/-! ## Serial demultiplexer -/

/-- 44_serial_demux R182: the byte goes to every selected chip, in ascending order, and nothing else happens. -/
def Obligations.SerialWriteReachesEverySelectedChip : Prop :=
  ∀ (b : Byte) (s : State), Attached s →
    encode (.sspWr b) = BitVec.ofNat 32 (0x80000000 + b.toNat) ∧
    exec (.sspWr b) s = .next (s.withTrace (s.trace ++
      ((List.finRange 3).filter fun i => s.sel.get i).map fun i => .chipWrite i b))

/-- 44_serial_demux R180, R183: every selected chip is read, in ascending order; none selected returns 0, one its byte,
several the first byte where the configuration says `first` (any value else, 93 U3; log entry 9); an unfitted chip reads
0, and the fitted ones among the selected answer from the environment's list in its order, any byte once it is exhausted
(log entry 3). Only the answers still to come, the counter of free values and the trace change. -/
def Obligations.SerialReadReadsEverySelectedChip : Prop :=
  ∀ s : State, Attached s →
    encode .sspRd = 0x70000000#32 ∧
    ∃ (bs : List Byte) (env : Env) (v : Byte),
      let chosen := (List.finRange 3).filter fun i => s.sel.get i
      let answers := ((chosen.zip bs).filter fun p => s.cfg.chipFitted.get p.1).map fun p => p.2
      bs.length = chosen.length ∧
      exec .sspRd s = .next ((s.withEnv env).withTrace (s.trace ++
        (chosen.zip bs).map (fun p => .chipRead p.1 p.2) ++ [.ret (.byte v)])) ∧
      (∀ p ∈ chosen.zip bs, s.cfg.chipFitted.get p.1 = false → p.2 = 0x00#8) ∧
      s.env.chipBytes.take answers.length <+: answers ∧
      answers.length = (chosen.filter fun i => s.cfg.chipFitted.get i).length ∧
      env.chipBytes = s.env.chipBytes.drop answers.length ∧
      (bs = [] → v = 0x00#8) ∧ (∀ b, bs = [b] → v = b) ∧
      (∀ b rest, bs = b :: rest → s.cfg.demuxMerge = .first → v = b) ∧
      env.flashBytes = s.env.flashBytes ∧ env.flashReady = s.env.flashReady ∧ env.handles = s.env.handles

/-! ## Key matrix -/

/-- 45_key_matrix R192: the sense recomputation makes one `SigSet` for each row whose sense bit changed, ascending, each
run to completion before the next, and stores the sense bits after the loop. With quiet SENSE wiring; the rest is
`StrobeHandlerOnSenseLineIsReentry`. -/
def Obligations.SenseRecomputationVisitsChangedRows : Prop :=
  ∀ s : State, s.running.km = false → SenseQuiet s →
    ∃ sense : BitVec 7, (∀ r : Fin 7, sense.getLsbD r.val = sensed s.km.pressed s.km.strobe r) ∧
      kmRecompute s =
        andThen (forEach ((List.finRange 7).filter fun r => sensed s.km.pressed s.km.strobe r != s.km.sense.getLsbD r.val)
          (fun r => sigSet (senseLine r) (sensed s.km.pressed s.km.strobe r)) (s.withRunning { s.running with km := true }))
          fun t => .next ((t.withKm { s.km with sense := sense }).withRunning s.running)

/-- 45_key_matrix R191 under the discipline of 70_reset_and_hazards R276: a change of a strobe line records the column
and reports exactly the rows whose sense bit changed, ascending. -/
def Obligations.StrobeChangeReportsChangedRows : Prop :=
  ∀ (l : Line) (c : Fin 11) (v : Bool) (s : State), Attached s → LoopsIdle s → SenseExternal s →
    (lineAt s l).handler = some (.strobe c) → v ≠ (lineAt s l).disp →
    ∃ t, exec (.sigSet l v) s = .next t ∧
      (∀ k, k < 11 → t.km.strobe.getLsbD k = if k = c.val then v else s.km.strobe.getLsbD k) ∧
      t.km.pressed = s.km.pressed ∧
      (∀ r : Fin 7, t.km.sense.getLsbD r.val = sensed t.km.pressed t.km.strobe r) ∧
      SenseExternal t ∧ lineAt t l = ⟨v, v, some (.strobe c)⟩ ∧
      (∀ m : Line, m ≠ l → m.val < 11 ∨ 18 ≤ m.val → lineAt t m = lineAt s m) ∧
      t.trace = s.trace ++ ((List.finRange 7).filter fun r =>
        sensed t.km.pressed t.km.strobe r != s.km.sense.getLsbD r.val).map
          (fun r => .ext (senseLine r) (sensed t.km.pressed t.km.strobe r)) ∧
      t = ((s.withSig t.sig).withKm t.km).withTrace t.trace

/-- 40_signal_bus R95, 60_exceptions R245, R248: a strobe handler bound to a SENSE line is a re-entry as soon as the sense
recomputation dispatches it. `r` is the first changed row with such a handler; the changed rows before it have made their
`SigSet`, and the fault carries the trace with the calls they made (00_scope R6; log entry 17), which the last clause lists
for external handlers. -/
def Obligations.StrobeHandlerOnSenseLineIsReentry : Prop :=
  ∀ (s : State) (r : Fin 7) (c : Fin 11),
    let new := sensed s.km.pressed s.km.strobe
    let before := (List.finRange 7).filter fun q => decide (q < r) && (new q != s.km.sense.getLsbD q.val)
    (∀ t, t.running.km = true → kmRecompute t = .fault (.reentry .keyMatrix t.trace)) ∧
    (s.running.km = false → (∀ q ∈ before, isStrobe (lineAt s (senseLine q)).handler = false) →
      new r ≠ s.km.sense.getLsbD r.val → (lineAt s (senseLine r)).handler = some (.strobe c) →
      (lineAt s (senseLine r)).disp ≠ new r →
      (∃ m, forEach before (fun q => sigSet (senseLine q) (new q)) (s.withRunning { s.running with km := true }) =
          .next m ∧ kmRecompute s = .fault (.reentry .keyMatrix m.trace)) ∧
      ((∀ q ∈ before, ExternalAt s (senseLine q) (s.km.sense.getLsbD q.val)) →
        kmRecompute s = .fault (.reentry .keyMatrix (s.trace ++ before.map fun q => .ext (senseLine q) (new q)))))

/-! ## Key synthesizer and tick -/

/-- 46_key_synth R220, 45_key_matrix R193 to R196: a tick does nothing in Idle; in Draining the oldest code leaves the
queue and is then applied: dropped if unmapped, driven on its special line XOR the inversion, or set in its cell with a
recomputation. That a keycode past the end of `KEYMAP` is unmapped and a special line past the end of `INVERT` not inverted,
for tables shorter than 70_reset_and_hazards R269 admits, is the model's choice (log entry 25). -/
def Obligations.TickAppliesTheOldestEvent : Prop :=
  encode .tick = 0x60000000#32 ∧
  ∀ s : State, Attached s →
    (pending s.queue = [] → exec .tick s = .next s) ∧
    ∀ (code : Byte) (rest : List Byte), pending s.queue = code :: rest →
      ∃ q, pending q = rest ∧
        let entry := s.cfg.keymap.getD (code.extractLsb' 0 7).toNat .unmapped
        (entry = .unmapped → exec .tick s = .next (s.withQueue q)) ∧
        (∀ col : Fin 5, entry = .cell 7 col.val →
          exec .tick s =
            exec (.sigSet (specialLine col) ((!code.getLsbD 7) ^^ s.cfg.invert.getD col.val false)) (s.withQueue q)) ∧
        (∀ (row : Fin 7) (col : Fin 11), entry = .cell row.val col.val → s.running.km = false →
          ∃ mask : BitVec 11,
            (∀ k, k < 11 → mask.getLsbD k =
              if k = col.val then !code.getLsbD 7 else (s.km.pressed.get (row.castLE (by omega))).getLsbD k) ∧
            exec .tick s = kmRecompute ((s.withQueue q).withKm { s.km with
              pressed := s.km.pressed.set row.val mask (by omega) }))

/-- 46_key_synth R220: in a session between stimuli with quiet SENSE wiring every tick completes; it removes one event,
and modifiers, tables, registers and other devices stay as they are. -/
def Obligations.TickCompletesWithFrame : Prop :=
  ∀ s : State, Attached s → SessionOk s → LoopsIdle s → SenseQuiet s →
    ∃ t, exec .tick s = .next t ∧ pending t.queue = (pending s.queue).tail ∧
      DispatchFrame ((s.withQueue t.queue).withKm t.km) t ∧
      ((∀ (col : Fin 5) (c : Fin 11), (lineAt s (specialLine col)).handler ≠ some (.strobe c)) →
        t.km.strobe = s.km.strobe)

/-- 45_key_matrix R194 under the discipline of 70_reset_and_hazards R276: the tick that applies an ordinary key sets or
clears its cell and reports exactly the rows whose sense bit changed. -/
def Obligations.AppliedKeyReportsChangedRows : Prop :=
  ∀ (s : State) (code : Byte) (rest : List Byte) (row : Fin 7) (col : Fin 11), Attached s → LoopsIdle s →
    SenseExternal s → pending s.queue = code :: rest →
    s.cfg.keymap.getD (code.extractLsb' 0 7).toNat .unmapped = .cell row.val col.val →
    ∃ t, exec .tick s = .next t ∧ pending t.queue = rest ∧
      (∀ (r : Fin 8) (k : Nat), k < 11 → (t.km.pressed.get r).getLsbD k =
        if r.val = row.val ∧ k = col.val then !code.getLsbD 7 else (s.km.pressed.get r).getLsbD k) ∧
      t.km.strobe = s.km.strobe ∧
      (∀ r : Fin 7, t.km.sense.getLsbD r.val = sensed t.km.pressed t.km.strobe r) ∧
      SenseExternal t ∧ (∀ m : Line, m.val < 11 ∨ 18 ≤ m.val → lineAt t m = lineAt s m) ∧
      t.trace = s.trace ++ ((List.finRange 7).filter fun r =>
        sensed t.km.pressed t.km.strobe r != s.km.sense.getLsbD r.val).map
          (fun r => .ext (senseLine r) (sensed t.km.pressed t.km.strobe r)) ∧
      t = (((s.withSig t.sig).withKm t.km).withQueue t.queue).withTrace t.trace

/-- 46_key_synth R210 to R218: a `KEY` stimulus appends its codes (synthetics or releases, then the primary) to the
pending events and updates the modifiers, nothing else; if they do not all fit, it ends in `QueueOverflow` with the first
code that did not. That a lookup past the end of `REMAP`, for a table shorter than 70_reset_and_hazards R269 admits, answers
the identity entry is the model's choice (log entry 25). -/
def Obligations.KeyEnqueuesItsCodes : Prop :=
  ∀ (kc : BitVec 7) (up : Bool) (s : State), Attached s → s.queue.len.toNat ≤ 16 →
    encode (if up then .keyUp kc else .keyDown kc) = BitVec.ofNat 32 (0x50000000 + up.toNat * 2 ^ 7 + kc.toNat) ∧
    ((pending s.queue).length + (keyOutcome s.cfg s.mods kc up).1.length ≤ 16 →
      ∃ q, exec (if up then .keyUp kc else .keyDown kc) s =
          .next ((s.withQueue q).withMods (keyOutcome s.cfg s.mods kc up).2) ∧
        q.head = s.queue.head ∧ pending q = pending s.queue ++ (keyOutcome s.cfg s.mods kc up).1) ∧
    (16 < (pending s.queue).length + (keyOutcome s.cfg s.mods kc up).1.length →
      exec (if up then .keyUp kc else .keyDown kc) s =
        .fault (.queueOverflow ((keyOutcome s.cfg s.mods kc up).1.getD (16 - (pending s.queue).length) 0x00#8)))

/-- 46_key_synth R219, R222, R223, consequences the spec marks as derived: a `KEY` stimulus with room for five codes
completes, and any that completes has enqueued one to five, the primary event last; the machine is then Draining. -/
def Obligations.KeyEnqueuesOneToFiveCodes : Prop :=
  ∀ (kc : BitVec 7) (s : State), Attached s →
    (s.queue.len.toNat + 5 ≤ 16 → (∃ t, exec (.keyDown kc) s = .next t) ∧ ∃ t, exec (.keyUp kc) s = .next t) ∧
    (s.queue.len.toNat ≤ 16 → ∀ (up : Bool) (t : State), exec (if up then .keyUp kc else .keyDown kc) s = .next t →
      ∃ cs : List Byte, 1 ≤ cs.length ∧ cs.length ≤ 5 ∧ pending t.queue = pending s.queue ++ cs ∧
        (∃ last, cs.getLast? = some last ∧ last.getLsbD 7 = up) ∧ t.queue.len ≠ 0#5)

/-! ## Invariants, over every state -/

/-- 10_state R20, R21: every step keeps the GPIO bank: the previous visible level is level AND direction, and bits 31:16
stay 0. -/
def Obligations.StepKeepsGpioBank : Prop :=
  ∀ s t : State, GpioBankOk s → step s = .next t → GpioBankOk t

/-- 10_state R25, R24: every step keeps the key matrix: a sense bit is set iff the row's pressed mask AND the strobe state
is non-zero, and row 7 holds nothing. -/
def Obligations.StepKeepsKeyMatrix : Prop :=
  ∀ s t : State, KeyMatrixOk s → step s = .next t → KeyMatrixOk t

/-- 10_state R26, R29: every step keeps the queue within its capacity and the unused injected bit 0. -/
def Obligations.StepKeepsSynthesizer : Prop :=
  ∀ s t : State, SynthesizerOk s → step s = .next t → SynthesizerOk t

/-- 10_state R15, R18: every step keeps the ready/busy position of the NAND control register 0 (its place is configured, log
entry 26) and the quirk of the power register. -/
def Obligations.StepKeepsRegisters : Prop :=
  ∀ s t : State, RegistersOk s → step s = .next t → RegistersOk t

/-- 10_state R19, R32: every step keeps an attached block's configuration well-formed and its read-only registers at
the configured constants, and leaves no loop in progress (log entry 10). -/
def Obligations.StepKeepsSession : Prop :=
  ∀ s t : State, SessionOk s → LoopsIdle s → step s = .next t → SessionOk t ∧ LoopsIdle t

/-- 10_state section 10, column "written by": no stimulus but those named there changes an element. Where the table names
a handler or a recomputation, the stimuli are those that can dispatch, and the element moves only if a line is bound to
its handler. The configuration and the input stay (log entries 1 and 7). -/
def Obligations.EachElementHasItsWriters : Prop :=
  ∀ (i : Instr) (s t : State), exec i s = .next t →
    t.cfg = s.cfg ∧ t.input = s.input ∧
    (i ≠ .attach →
      (¬ Dispatches s.cfg i →
        (∀ l, (lineAt t l).level = (lineAt s l).level ∧ (lineAt t l).disp = (lineAt s l).disp) ∧ t.sel = s.sel ∧
          t.km.strobe = s.km.strobe ∧ t.km.sense = s.km.sense) ∧
      (∀ l, (lineAt s l).handler = none → (lineAt t l).disp = (lineAt s l).disp) ∧
      (∀ k : Fin 3, (∀ l, (lineAt s l).handler ≠ some (.cs k)) → t.sel.get k = s.sel.get k) ∧
      (∀ c : Fin 11, (∀ l, (lineAt s l).handler ≠ some (.strobe c)) →
        t.km.strobe.getLsbD c.val = s.km.strobe.getLsbD c.val) ∧
      (i ≠ .tick → (∀ l, isStrobe (lineAt s l).handler = false) → t.km.sense = s.km.sense) ∧
      ((∀ l h, i ≠ .sigReg l h) → ∀ l, (lineAt t l).handler = (lineAt s l).handler) ∧
      ((∀ sz d, i ≠ .nandWrCtl sz d) → t.nandCtl = s.nandCtl) ∧
      ((∀ sz, i ≠ .nandRdIo sz) → (∀ sz d, i ≠ .nandWrIo sz d) → (∀ sz d, i ≠ .nandWrEccclr sz d) → t.ecc = s.ecc) ∧
      ((∀ sz d, i ≠ .expWrMode sz d) → t.exp.mode = s.exp.mode) ∧
      ((∀ sz d, i ≠ .expWrCmddata sz d) → t.exp.cmddata = s.exp.cmddata) ∧
      ((∀ sz d, i ≠ .expWrPower sz d) → t.exp.power = s.exp.power) ∧
      ((∀ sz d, i ≠ .expWrClock sz d) → t.exp.clock = s.exp.clock) ∧
      ((∀ sz d, i ≠ .expWrIrctl sz d) → t.exp.irctl = s.exp.irctl) ∧
      ((∀ sz d, i ≠ .expWrImask sz d) → t.exp.imask = s.exp.imask) ∧
      ((∀ sz d, i ≠ .expWrIstat sz d) → t.exp.istat = s.exp.istat) ∧
      t.exp.status = s.exp.status ∧ t.exp.irr = s.exp.irr ∧
      ((∀ sz d, i ≠ .expWrGpdir sz d) → t.exp.gpioDir = s.exp.gpioDir) ∧
      ((∀ sz d, i ≠ .expWrGpout sz d) → t.exp.gpioOut = s.exp.gpioOut) ∧
      ((∀ sz d, i ≠ .expWrGpdir sz d ∧ i ≠ .expWrGpout sz d) → t.exp.gpioPrev = s.exp.gpioPrev) ∧
      (i ≠ .hsyncNotify → ((∀ sz, i ≠ .expRdStatus sz) ∨ s.cfg.hsyncOnExpStatusRead = false) → t.hsync = s.hsync) ∧
      (i ≠ .tick → t.km.pressed = s.km.pressed) ∧
      ((∀ kc, i ≠ .keyDown kc ∧ i ≠ .keyUp kc) → t.mods = s.mods ∧ t.queue.buf = s.queue.buf ∧
        (i ≠ .tick → t.queue.len = s.queue.len)) ∧
      (i ≠ .tick → t.queue.head = s.queue.head) ∧
      (i ≠ .teardown → t.life = s.life))

/-- 10_state R17: nothing but a transfer through the I/O register, the explicit clear and attachment changes the ECC
state, and the clear alone zeroes it whatever it held. -/
def Obligations.OnlyIoClearAndAttachChangeEcc : Prop :=
  ∀ (i : Instr) (s t : State), exec i s = .next t →
    ((∀ sz, i ≠ .nandRdIo sz) → (∀ sz d, i ≠ .nandWrIo sz d) → (∀ sz d, i ≠ .nandWrEccclr sz d) → i ≠ .attach →
      t.ecc = s.ecc) ∧
    (∀ sz d, i = .nandWrEccclr sz d → t.ecc = ⟨0x00#8, 0x00#8, 0x00#8, 0x0000#16⟩)

/-! ## Faults -/

/-- 60_exceptions R240: `ConfigError` is raised by `ATTACH` only, `QueueOverflow` by `KEY` only and on a queue that has
not room for five codes, and no register access of the NAND block, no read of a plain register and no serial
transaction faults. -/
def Obligations.FaultsComeFromTheirStimuli : Prop :=
  ∀ (i : Instr) (s : State),
    (∀ why, exec i s = .fault (.configError why) → i = .attach) ∧
    (∀ code, exec i s = .fault (.queueOverflow code) →
      (∃ kc, i = .keyDown kc ∨ i = .keyUp kc) ∧ (s.queue.len.toNat ≤ 16 → 11 < s.queue.len.toNat)) ∧
    (∀ d seen, exec i s = .fault (.reentry d seen) →
      (∃ sz data, i = .expWrGpdir sz data ∨ i = .expWrGpout sz data) ∨ (∃ sz, i = .expRdStatus sz) ∨
        (∃ l v, i = .sigSet l v) ∨ i = .tick ∨ i = .hsyncNotify)

/-- 60_exceptions R245, 70_reset_and_hazards R282: while no SENSE line calls a strobe handler, which holds of every
admitted wiring, no stimulus is a re-entry. -/
def Obligations.NoReentryUnderQuietWiring : Prop :=
  ∀ (i : Instr) (s : State) (d : LoopDev) (seen : List Event), LoopsIdle s → SenseQuiet s →
    exec i s ≠ .fault (.reentry d seen)

/-- 70_reset_and_hazards R269 (g), R282: the wiring after `ATTACH` is quiet, and nothing but the binding of a strobe
handler to a SENSE line ends that. -/
def Obligations.OnlySigRegEndsQuietWiring : Prop :=
  ∀ (i : Instr) (s t : State), exec i s = .next t →
    (i = .attach → SenseQuiet t) ∧
    ((∀ (r : Fin 7) (c : Fin 11), i ≠ .sigReg (senseLine r) (.strobe c)) → SenseQuiet s → SenseQuiet t)
end

