-- ==== Sys2Proof/Laws/State.lean ====
section
/-! SUPPORT. Every field of the state under every update, true by definition. -/

namespace Sys2Proof.Machine.State

variable (s : State)

@[simp] theorem withSig_sig (x : Vector SignalLine 64) : (s.withSig x).sig = x := rfl
@[simp] theorem withSig_nandCtl (x : Vector SignalLine 64) : (s.withSig x).nandCtl = s.nandCtl := rfl
@[simp] theorem withSig_ecc (x : Vector SignalLine 64) : (s.withSig x).ecc = s.ecc := rfl
@[simp] theorem withSig_exp (x : Vector SignalLine 64) : (s.withSig x).exp = s.exp := rfl
@[simp] theorem withSig_hsync (x : Vector SignalLine 64) : (s.withSig x).hsync = s.hsync := rfl
@[simp] theorem withSig_sel (x : Vector SignalLine 64) : (s.withSig x).sel = s.sel := rfl
@[simp] theorem withSig_km (x : Vector SignalLine 64) : (s.withSig x).km = s.km := rfl
@[simp] theorem withSig_mods (x : Vector SignalLine 64) : (s.withSig x).mods = s.mods := rfl
@[simp] theorem withSig_queue (x : Vector SignalLine 64) : (s.withSig x).queue = s.queue := rfl
@[simp] theorem withSig_life (x : Vector SignalLine 64) : (s.withSig x).life = s.life := rfl
@[simp] theorem withSig_cfg (x : Vector SignalLine 64) : (s.withSig x).cfg = s.cfg := rfl
@[simp] theorem withSig_running (x : Vector SignalLine 64) : (s.withSig x).running = s.running := rfl
@[simp] theorem withSig_env (x : Vector SignalLine 64) : (s.withSig x).env = s.env := rfl
@[simp] theorem withSig_input (x : Vector SignalLine 64) : (s.withSig x).input = s.input := rfl
@[simp] theorem withSig_trace (x : Vector SignalLine 64) : (s.withSig x).trace = s.trace := rfl
@[simp] theorem withSig_self : s.withSig s.sig = s := rfl
@[simp] theorem withSig_withSig (x y : Vector SignalLine 64) : (s.withSig x).withSig y = s.withSig y := rfl

@[simp] theorem withNandCtl_sig (x : Byte) : (s.withNandCtl x).sig = s.sig := rfl
@[simp] theorem withNandCtl_nandCtl (x : Byte) : (s.withNandCtl x).nandCtl = x := rfl
@[simp] theorem withNandCtl_ecc (x : Byte) : (s.withNandCtl x).ecc = s.ecc := rfl
@[simp] theorem withNandCtl_exp (x : Byte) : (s.withNandCtl x).exp = s.exp := rfl
@[simp] theorem withNandCtl_hsync (x : Byte) : (s.withNandCtl x).hsync = s.hsync := rfl
@[simp] theorem withNandCtl_sel (x : Byte) : (s.withNandCtl x).sel = s.sel := rfl
@[simp] theorem withNandCtl_km (x : Byte) : (s.withNandCtl x).km = s.km := rfl
@[simp] theorem withNandCtl_mods (x : Byte) : (s.withNandCtl x).mods = s.mods := rfl
@[simp] theorem withNandCtl_queue (x : Byte) : (s.withNandCtl x).queue = s.queue := rfl
@[simp] theorem withNandCtl_life (x : Byte) : (s.withNandCtl x).life = s.life := rfl
@[simp] theorem withNandCtl_cfg (x : Byte) : (s.withNandCtl x).cfg = s.cfg := rfl
@[simp] theorem withNandCtl_running (x : Byte) : (s.withNandCtl x).running = s.running := rfl
@[simp] theorem withNandCtl_env (x : Byte) : (s.withNandCtl x).env = s.env := rfl
@[simp] theorem withNandCtl_input (x : Byte) : (s.withNandCtl x).input = s.input := rfl
@[simp] theorem withNandCtl_trace (x : Byte) : (s.withNandCtl x).trace = s.trace := rfl
@[simp] theorem withNandCtl_self : s.withNandCtl s.nandCtl = s := rfl
@[simp] theorem withNandCtl_withNandCtl (x y : Byte) : (s.withNandCtl x).withNandCtl y = s.withNandCtl y := rfl

@[simp] theorem withEcc_sig (x : Ecc) : (s.withEcc x).sig = s.sig := rfl
@[simp] theorem withEcc_nandCtl (x : Ecc) : (s.withEcc x).nandCtl = s.nandCtl := rfl
@[simp] theorem withEcc_ecc (x : Ecc) : (s.withEcc x).ecc = x := rfl
@[simp] theorem withEcc_exp (x : Ecc) : (s.withEcc x).exp = s.exp := rfl
@[simp] theorem withEcc_hsync (x : Ecc) : (s.withEcc x).hsync = s.hsync := rfl
@[simp] theorem withEcc_sel (x : Ecc) : (s.withEcc x).sel = s.sel := rfl
@[simp] theorem withEcc_km (x : Ecc) : (s.withEcc x).km = s.km := rfl
@[simp] theorem withEcc_mods (x : Ecc) : (s.withEcc x).mods = s.mods := rfl
@[simp] theorem withEcc_queue (x : Ecc) : (s.withEcc x).queue = s.queue := rfl
@[simp] theorem withEcc_life (x : Ecc) : (s.withEcc x).life = s.life := rfl
@[simp] theorem withEcc_cfg (x : Ecc) : (s.withEcc x).cfg = s.cfg := rfl
@[simp] theorem withEcc_running (x : Ecc) : (s.withEcc x).running = s.running := rfl
@[simp] theorem withEcc_env (x : Ecc) : (s.withEcc x).env = s.env := rfl
@[simp] theorem withEcc_input (x : Ecc) : (s.withEcc x).input = s.input := rfl
@[simp] theorem withEcc_trace (x : Ecc) : (s.withEcc x).trace = s.trace := rfl
@[simp] theorem withEcc_self : s.withEcc s.ecc = s := rfl
@[simp] theorem withEcc_withEcc (x y : Ecc) : (s.withEcc x).withEcc y = s.withEcc y := rfl

@[simp] theorem withExp_sig (x : Expander) : (s.withExp x).sig = s.sig := rfl
@[simp] theorem withExp_nandCtl (x : Expander) : (s.withExp x).nandCtl = s.nandCtl := rfl
@[simp] theorem withExp_ecc (x : Expander) : (s.withExp x).ecc = s.ecc := rfl
@[simp] theorem withExp_exp (x : Expander) : (s.withExp x).exp = x := rfl
@[simp] theorem withExp_hsync (x : Expander) : (s.withExp x).hsync = s.hsync := rfl
@[simp] theorem withExp_sel (x : Expander) : (s.withExp x).sel = s.sel := rfl
@[simp] theorem withExp_km (x : Expander) : (s.withExp x).km = s.km := rfl
@[simp] theorem withExp_mods (x : Expander) : (s.withExp x).mods = s.mods := rfl
@[simp] theorem withExp_queue (x : Expander) : (s.withExp x).queue = s.queue := rfl
@[simp] theorem withExp_life (x : Expander) : (s.withExp x).life = s.life := rfl
@[simp] theorem withExp_cfg (x : Expander) : (s.withExp x).cfg = s.cfg := rfl
@[simp] theorem withExp_running (x : Expander) : (s.withExp x).running = s.running := rfl
@[simp] theorem withExp_env (x : Expander) : (s.withExp x).env = s.env := rfl
@[simp] theorem withExp_input (x : Expander) : (s.withExp x).input = s.input := rfl
@[simp] theorem withExp_trace (x : Expander) : (s.withExp x).trace = s.trace := rfl
@[simp] theorem withExp_self : s.withExp s.exp = s := rfl
@[simp] theorem withExp_withExp (x y : Expander) : (s.withExp x).withExp y = s.withExp y := rfl

@[simp] theorem withHsync_sig (x : Bool) : (s.withHsync x).sig = s.sig := rfl
@[simp] theorem withHsync_nandCtl (x : Bool) : (s.withHsync x).nandCtl = s.nandCtl := rfl
@[simp] theorem withHsync_ecc (x : Bool) : (s.withHsync x).ecc = s.ecc := rfl
@[simp] theorem withHsync_exp (x : Bool) : (s.withHsync x).exp = s.exp := rfl
@[simp] theorem withHsync_hsync (x : Bool) : (s.withHsync x).hsync = x := rfl
@[simp] theorem withHsync_sel (x : Bool) : (s.withHsync x).sel = s.sel := rfl
@[simp] theorem withHsync_km (x : Bool) : (s.withHsync x).km = s.km := rfl
@[simp] theorem withHsync_mods (x : Bool) : (s.withHsync x).mods = s.mods := rfl
@[simp] theorem withHsync_queue (x : Bool) : (s.withHsync x).queue = s.queue := rfl
@[simp] theorem withHsync_life (x : Bool) : (s.withHsync x).life = s.life := rfl
@[simp] theorem withHsync_cfg (x : Bool) : (s.withHsync x).cfg = s.cfg := rfl
@[simp] theorem withHsync_running (x : Bool) : (s.withHsync x).running = s.running := rfl
@[simp] theorem withHsync_env (x : Bool) : (s.withHsync x).env = s.env := rfl
@[simp] theorem withHsync_input (x : Bool) : (s.withHsync x).input = s.input := rfl
@[simp] theorem withHsync_trace (x : Bool) : (s.withHsync x).trace = s.trace := rfl
@[simp] theorem withHsync_self : s.withHsync s.hsync = s := rfl
@[simp] theorem withHsync_withHsync (x y : Bool) : (s.withHsync x).withHsync y = s.withHsync y := rfl

@[simp] theorem withSel_sig (x : Vector Bool 3) : (s.withSel x).sig = s.sig := rfl
@[simp] theorem withSel_nandCtl (x : Vector Bool 3) : (s.withSel x).nandCtl = s.nandCtl := rfl
@[simp] theorem withSel_ecc (x : Vector Bool 3) : (s.withSel x).ecc = s.ecc := rfl
@[simp] theorem withSel_exp (x : Vector Bool 3) : (s.withSel x).exp = s.exp := rfl
@[simp] theorem withSel_hsync (x : Vector Bool 3) : (s.withSel x).hsync = s.hsync := rfl
@[simp] theorem withSel_sel (x : Vector Bool 3) : (s.withSel x).sel = x := rfl
@[simp] theorem withSel_km (x : Vector Bool 3) : (s.withSel x).km = s.km := rfl
@[simp] theorem withSel_mods (x : Vector Bool 3) : (s.withSel x).mods = s.mods := rfl
@[simp] theorem withSel_queue (x : Vector Bool 3) : (s.withSel x).queue = s.queue := rfl
@[simp] theorem withSel_life (x : Vector Bool 3) : (s.withSel x).life = s.life := rfl
@[simp] theorem withSel_cfg (x : Vector Bool 3) : (s.withSel x).cfg = s.cfg := rfl
@[simp] theorem withSel_running (x : Vector Bool 3) : (s.withSel x).running = s.running := rfl
@[simp] theorem withSel_env (x : Vector Bool 3) : (s.withSel x).env = s.env := rfl
@[simp] theorem withSel_input (x : Vector Bool 3) : (s.withSel x).input = s.input := rfl
@[simp] theorem withSel_trace (x : Vector Bool 3) : (s.withSel x).trace = s.trace := rfl
@[simp] theorem withSel_self : s.withSel s.sel = s := rfl
@[simp] theorem withSel_withSel (x y : Vector Bool 3) : (s.withSel x).withSel y = s.withSel y := rfl

@[simp] theorem withKm_sig (x : KeyMatrix) : (s.withKm x).sig = s.sig := rfl
@[simp] theorem withKm_nandCtl (x : KeyMatrix) : (s.withKm x).nandCtl = s.nandCtl := rfl
@[simp] theorem withKm_ecc (x : KeyMatrix) : (s.withKm x).ecc = s.ecc := rfl
@[simp] theorem withKm_exp (x : KeyMatrix) : (s.withKm x).exp = s.exp := rfl
@[simp] theorem withKm_hsync (x : KeyMatrix) : (s.withKm x).hsync = s.hsync := rfl
@[simp] theorem withKm_sel (x : KeyMatrix) : (s.withKm x).sel = s.sel := rfl
@[simp] theorem withKm_km (x : KeyMatrix) : (s.withKm x).km = x := rfl
@[simp] theorem withKm_mods (x : KeyMatrix) : (s.withKm x).mods = s.mods := rfl
@[simp] theorem withKm_queue (x : KeyMatrix) : (s.withKm x).queue = s.queue := rfl
@[simp] theorem withKm_life (x : KeyMatrix) : (s.withKm x).life = s.life := rfl
@[simp] theorem withKm_cfg (x : KeyMatrix) : (s.withKm x).cfg = s.cfg := rfl
@[simp] theorem withKm_running (x : KeyMatrix) : (s.withKm x).running = s.running := rfl
@[simp] theorem withKm_env (x : KeyMatrix) : (s.withKm x).env = s.env := rfl
@[simp] theorem withKm_input (x : KeyMatrix) : (s.withKm x).input = s.input := rfl
@[simp] theorem withKm_trace (x : KeyMatrix) : (s.withKm x).trace = s.trace := rfl
@[simp] theorem withKm_self : s.withKm s.km = s := rfl
@[simp] theorem withKm_withKm (x y : KeyMatrix) : (s.withKm x).withKm y = s.withKm y := rfl

@[simp] theorem withMods_sig (x : Modifiers) : (s.withMods x).sig = s.sig := rfl
@[simp] theorem withMods_nandCtl (x : Modifiers) : (s.withMods x).nandCtl = s.nandCtl := rfl
@[simp] theorem withMods_ecc (x : Modifiers) : (s.withMods x).ecc = s.ecc := rfl
@[simp] theorem withMods_exp (x : Modifiers) : (s.withMods x).exp = s.exp := rfl
@[simp] theorem withMods_hsync (x : Modifiers) : (s.withMods x).hsync = s.hsync := rfl
@[simp] theorem withMods_sel (x : Modifiers) : (s.withMods x).sel = s.sel := rfl
@[simp] theorem withMods_km (x : Modifiers) : (s.withMods x).km = s.km := rfl
@[simp] theorem withMods_mods (x : Modifiers) : (s.withMods x).mods = x := rfl
@[simp] theorem withMods_queue (x : Modifiers) : (s.withMods x).queue = s.queue := rfl
@[simp] theorem withMods_life (x : Modifiers) : (s.withMods x).life = s.life := rfl
@[simp] theorem withMods_cfg (x : Modifiers) : (s.withMods x).cfg = s.cfg := rfl
@[simp] theorem withMods_running (x : Modifiers) : (s.withMods x).running = s.running := rfl
@[simp] theorem withMods_env (x : Modifiers) : (s.withMods x).env = s.env := rfl
@[simp] theorem withMods_input (x : Modifiers) : (s.withMods x).input = s.input := rfl
@[simp] theorem withMods_trace (x : Modifiers) : (s.withMods x).trace = s.trace := rfl
@[simp] theorem withMods_self : s.withMods s.mods = s := rfl
@[simp] theorem withMods_withMods (x y : Modifiers) : (s.withMods x).withMods y = s.withMods y := rfl

@[simp] theorem withQueue_sig (x : Queue) : (s.withQueue x).sig = s.sig := rfl
@[simp] theorem withQueue_nandCtl (x : Queue) : (s.withQueue x).nandCtl = s.nandCtl := rfl
@[simp] theorem withQueue_ecc (x : Queue) : (s.withQueue x).ecc = s.ecc := rfl
@[simp] theorem withQueue_exp (x : Queue) : (s.withQueue x).exp = s.exp := rfl
@[simp] theorem withQueue_hsync (x : Queue) : (s.withQueue x).hsync = s.hsync := rfl
@[simp] theorem withQueue_sel (x : Queue) : (s.withQueue x).sel = s.sel := rfl
@[simp] theorem withQueue_km (x : Queue) : (s.withQueue x).km = s.km := rfl
@[simp] theorem withQueue_mods (x : Queue) : (s.withQueue x).mods = s.mods := rfl
@[simp] theorem withQueue_queue (x : Queue) : (s.withQueue x).queue = x := rfl
@[simp] theorem withQueue_life (x : Queue) : (s.withQueue x).life = s.life := rfl
@[simp] theorem withQueue_cfg (x : Queue) : (s.withQueue x).cfg = s.cfg := rfl
@[simp] theorem withQueue_running (x : Queue) : (s.withQueue x).running = s.running := rfl
@[simp] theorem withQueue_env (x : Queue) : (s.withQueue x).env = s.env := rfl
@[simp] theorem withQueue_input (x : Queue) : (s.withQueue x).input = s.input := rfl
@[simp] theorem withQueue_trace (x : Queue) : (s.withQueue x).trace = s.trace := rfl
@[simp] theorem withQueue_self : s.withQueue s.queue = s := rfl
@[simp] theorem withQueue_withQueue (x y : Queue) : (s.withQueue x).withQueue y = s.withQueue y := rfl

@[simp] theorem withLife_sig (x : Life) : (s.withLife x).sig = s.sig := rfl
@[simp] theorem withLife_nandCtl (x : Life) : (s.withLife x).nandCtl = s.nandCtl := rfl
@[simp] theorem withLife_ecc (x : Life) : (s.withLife x).ecc = s.ecc := rfl
@[simp] theorem withLife_exp (x : Life) : (s.withLife x).exp = s.exp := rfl
@[simp] theorem withLife_hsync (x : Life) : (s.withLife x).hsync = s.hsync := rfl
@[simp] theorem withLife_sel (x : Life) : (s.withLife x).sel = s.sel := rfl
@[simp] theorem withLife_km (x : Life) : (s.withLife x).km = s.km := rfl
@[simp] theorem withLife_mods (x : Life) : (s.withLife x).mods = s.mods := rfl
@[simp] theorem withLife_queue (x : Life) : (s.withLife x).queue = s.queue := rfl
@[simp] theorem withLife_life (x : Life) : (s.withLife x).life = x := rfl
@[simp] theorem withLife_cfg (x : Life) : (s.withLife x).cfg = s.cfg := rfl
@[simp] theorem withLife_running (x : Life) : (s.withLife x).running = s.running := rfl
@[simp] theorem withLife_env (x : Life) : (s.withLife x).env = s.env := rfl
@[simp] theorem withLife_input (x : Life) : (s.withLife x).input = s.input := rfl
@[simp] theorem withLife_trace (x : Life) : (s.withLife x).trace = s.trace := rfl
@[simp] theorem withLife_self : s.withLife s.life = s := rfl
@[simp] theorem withLife_withLife (x y : Life) : (s.withLife x).withLife y = s.withLife y := rfl

@[simp] theorem withRunning_sig (x : Running) : (s.withRunning x).sig = s.sig := rfl
@[simp] theorem withRunning_nandCtl (x : Running) : (s.withRunning x).nandCtl = s.nandCtl := rfl
@[simp] theorem withRunning_ecc (x : Running) : (s.withRunning x).ecc = s.ecc := rfl
@[simp] theorem withRunning_exp (x : Running) : (s.withRunning x).exp = s.exp := rfl
@[simp] theorem withRunning_hsync (x : Running) : (s.withRunning x).hsync = s.hsync := rfl
@[simp] theorem withRunning_sel (x : Running) : (s.withRunning x).sel = s.sel := rfl
@[simp] theorem withRunning_km (x : Running) : (s.withRunning x).km = s.km := rfl
@[simp] theorem withRunning_mods (x : Running) : (s.withRunning x).mods = s.mods := rfl
@[simp] theorem withRunning_queue (x : Running) : (s.withRunning x).queue = s.queue := rfl
@[simp] theorem withRunning_life (x : Running) : (s.withRunning x).life = s.life := rfl
@[simp] theorem withRunning_cfg (x : Running) : (s.withRunning x).cfg = s.cfg := rfl
@[simp] theorem withRunning_running (x : Running) : (s.withRunning x).running = x := rfl
@[simp] theorem withRunning_env (x : Running) : (s.withRunning x).env = s.env := rfl
@[simp] theorem withRunning_input (x : Running) : (s.withRunning x).input = s.input := rfl
@[simp] theorem withRunning_trace (x : Running) : (s.withRunning x).trace = s.trace := rfl
@[simp] theorem withRunning_self : s.withRunning s.running = s := rfl
@[simp] theorem withRunning_withRunning (x y : Running) : (s.withRunning x).withRunning y = s.withRunning y := rfl

@[simp] theorem withEnv_sig (x : Env) : (s.withEnv x).sig = s.sig := rfl
@[simp] theorem withEnv_nandCtl (x : Env) : (s.withEnv x).nandCtl = s.nandCtl := rfl
@[simp] theorem withEnv_ecc (x : Env) : (s.withEnv x).ecc = s.ecc := rfl
@[simp] theorem withEnv_exp (x : Env) : (s.withEnv x).exp = s.exp := rfl
@[simp] theorem withEnv_hsync (x : Env) : (s.withEnv x).hsync = s.hsync := rfl
@[simp] theorem withEnv_sel (x : Env) : (s.withEnv x).sel = s.sel := rfl
@[simp] theorem withEnv_km (x : Env) : (s.withEnv x).km = s.km := rfl
@[simp] theorem withEnv_mods (x : Env) : (s.withEnv x).mods = s.mods := rfl
@[simp] theorem withEnv_queue (x : Env) : (s.withEnv x).queue = s.queue := rfl
@[simp] theorem withEnv_life (x : Env) : (s.withEnv x).life = s.life := rfl
@[simp] theorem withEnv_cfg (x : Env) : (s.withEnv x).cfg = s.cfg := rfl
@[simp] theorem withEnv_running (x : Env) : (s.withEnv x).running = s.running := rfl
@[simp] theorem withEnv_env (x : Env) : (s.withEnv x).env = x := rfl
@[simp] theorem withEnv_input (x : Env) : (s.withEnv x).input = s.input := rfl
@[simp] theorem withEnv_trace (x : Env) : (s.withEnv x).trace = s.trace := rfl
@[simp] theorem withEnv_self : s.withEnv s.env = s := rfl
@[simp] theorem withEnv_withEnv (x y : Env) : (s.withEnv x).withEnv y = s.withEnv y := rfl

@[simp] theorem withInput_sig (x : List Stimulus) : (s.withInput x).sig = s.sig := rfl
@[simp] theorem withInput_nandCtl (x : List Stimulus) : (s.withInput x).nandCtl = s.nandCtl := rfl
@[simp] theorem withInput_ecc (x : List Stimulus) : (s.withInput x).ecc = s.ecc := rfl
@[simp] theorem withInput_exp (x : List Stimulus) : (s.withInput x).exp = s.exp := rfl
@[simp] theorem withInput_hsync (x : List Stimulus) : (s.withInput x).hsync = s.hsync := rfl
@[simp] theorem withInput_sel (x : List Stimulus) : (s.withInput x).sel = s.sel := rfl
@[simp] theorem withInput_km (x : List Stimulus) : (s.withInput x).km = s.km := rfl
@[simp] theorem withInput_mods (x : List Stimulus) : (s.withInput x).mods = s.mods := rfl
@[simp] theorem withInput_queue (x : List Stimulus) : (s.withInput x).queue = s.queue := rfl
@[simp] theorem withInput_life (x : List Stimulus) : (s.withInput x).life = s.life := rfl
@[simp] theorem withInput_cfg (x : List Stimulus) : (s.withInput x).cfg = s.cfg := rfl
@[simp] theorem withInput_running (x : List Stimulus) : (s.withInput x).running = s.running := rfl
@[simp] theorem withInput_env (x : List Stimulus) : (s.withInput x).env = s.env := rfl
@[simp] theorem withInput_input (x : List Stimulus) : (s.withInput x).input = x := rfl
@[simp] theorem withInput_trace (x : List Stimulus) : (s.withInput x).trace = s.trace := rfl
@[simp] theorem withInput_self : s.withInput s.input = s := rfl
@[simp] theorem withInput_withInput (x y : List Stimulus) : (s.withInput x).withInput y = s.withInput y := rfl

@[simp] theorem withTrace_sig (x : List Event) : (s.withTrace x).sig = s.sig := rfl
@[simp] theorem withTrace_nandCtl (x : List Event) : (s.withTrace x).nandCtl = s.nandCtl := rfl
@[simp] theorem withTrace_ecc (x : List Event) : (s.withTrace x).ecc = s.ecc := rfl
@[simp] theorem withTrace_exp (x : List Event) : (s.withTrace x).exp = s.exp := rfl
@[simp] theorem withTrace_hsync (x : List Event) : (s.withTrace x).hsync = s.hsync := rfl
@[simp] theorem withTrace_sel (x : List Event) : (s.withTrace x).sel = s.sel := rfl
@[simp] theorem withTrace_km (x : List Event) : (s.withTrace x).km = s.km := rfl
@[simp] theorem withTrace_mods (x : List Event) : (s.withTrace x).mods = s.mods := rfl
@[simp] theorem withTrace_queue (x : List Event) : (s.withTrace x).queue = s.queue := rfl
@[simp] theorem withTrace_life (x : List Event) : (s.withTrace x).life = s.life := rfl
@[simp] theorem withTrace_cfg (x : List Event) : (s.withTrace x).cfg = s.cfg := rfl
@[simp] theorem withTrace_running (x : List Event) : (s.withTrace x).running = s.running := rfl
@[simp] theorem withTrace_env (x : List Event) : (s.withTrace x).env = s.env := rfl
@[simp] theorem withTrace_input (x : List Event) : (s.withTrace x).input = s.input := rfl
@[simp] theorem withTrace_trace (x : List Event) : (s.withTrace x).trace = x := rfl
@[simp] theorem withTrace_self : s.withTrace s.trace = s := rfl
@[simp] theorem withTrace_withTrace (x y : List Event) : (s.withTrace x).withTrace y = s.withTrace y := rfl

end Sys2Proof.Machine.State
end

