-- ==== Sys2Proof/Laws/Ops.lean ====
section
/-! SUPPORT. What each shared operation can do, said once: sequencing, lines, dispatch and its frame, re-entry, ECC, the
environment calls, the queue. Later proofs cite these instead of unfolding the operations. -/

namespace Sys2Proof.Machine

/-! ## Sequencing -/

@[simp] theorem andThen_next (s : State) (k : State → Result) : andThen (.next s) k = k s := rfl
@[simp] theorem andThen_fault (e : Fault) (k : State → Result) : andThen (.fault e) k = .fault e := rfl
@[simp] theorem andThen_refused (e : Refusal) (k : State → Result) : andThen (.refused e) k = .refused e := rfl

theorem andThen_eq_next {r : Result} {k : State → Result} {t : State} :
    andThen r k = .next t ↔ ∃ m, r = .next m ∧ k m = .next t := by
  cases r <;> simp

theorem andThen_eq_fault {r : Result} {k : State → Result} {e : Fault} :
    andThen r k = .fault e ↔ r = .fault e ∨ ∃ m, r = .next m ∧ k m = .fault e := by
  cases r <;> simp

@[simp] theorem forEach_nil {α : Type} (f : α → State → Result) (s : State) : forEach [] f s = .next s := rfl
@[simp] theorem forEach_cons {α : Type} (x : α) (xs : List α) (f : α → State → Result) (s : State) :
    forEach (x :: xs) f s = andThen (f x s) (forEach xs f) := rfl

/-- A property every iteration keeps, the loop keeps. -/
theorem forEach_keeps {α : Type} {f : α → State → Result} (P : State → Prop)
    (hf : ∀ x s t, P s → f x s = .next t → P t) {xs : List α} {s t : State} (hs : P s)
    (h : forEach xs f s = .next t) : P t := by
  induction xs generalizing s with
  | nil => cases h; exact hs
  | cons x xs ih =>
    obtain ⟨m, hm, ht⟩ := andThen_eq_next.1 h
    exact ih (hf x s m hs hm) ht

/-- If every iteration completes and keeps `P`, the loop completes. -/
theorem forEach_completes {α : Type} {f : α → State → Result} (P : State → Prop)
    (hf : ∀ x s, P s → ∃ t, f x s = .next t ∧ P t) (xs : List α) {s : State} (hs : P s) :
    ∃ t, forEach xs f s = .next t ∧ P t := by
  induction xs generalizing s with
  | nil => exact ⟨s, rfl, hs⟩
  | cons x xs ih =>
    obtain ⟨m, hm, hp⟩ := hf x s hs
    obtain ⟨t, ht, hq⟩ := ih hp
    exact ⟨t, by simp [hm, ht], hq⟩

theorem whenAttached_eq_next {s t : State} {r : Result} :
    whenAttached s r = .next t ↔ Attached s ∧ r = .next t := by
  unfold whenAttached Attached
  split <;> simp_all

theorem whenAttached_of {s : State} {r : Result} (h : Attached s) : whenAttached s r = r := by
  obtain ⟨k, hk⟩ := h
  simp [whenAttached, hk]

/-! ## Lines -/

@[simp] theorem lineAt_setLine_self (s : State) (l : Line) (x : SignalLine) : lineAt (setLine s l x) l = x := by
  simp [lineAt, setLine, Vector.get_eq_getElem]

theorem lineAt_setLine_ne (s : State) {l m : Line} (x : SignalLine) (h : m ≠ l) :
    lineAt (setLine s l x) m = lineAt s m := by
  have : l.val ≠ m.val := fun e => h (Fin.ext e.symm)
  simp [lineAt, setLine, Vector.get_eq_getElem, Vector.getElem_set_ne, this]

@[simp] theorem setLine_lineAt (s : State) (l : Line) : setLine s l (lineAt s l) = s := by
  simp [lineAt, setLine, Vector.get_eq_getElem]

@[simp] theorem lineAt_emit (s : State) (e : Event) (l : Line) : lineAt (emit s e) l = lineAt s l := rfl
@[simp] theorem lineAt_hCs (s : State) (i : Fin 3) (v : Bool) (l : Line) : lineAt (hCs i v s) l = lineAt s l := rfl

theorem DispatchFrame.refl (s : State) : DispatchFrame s s :=
  ⟨fun _ => rfl, rfl, rfl, rfl, rfl, rfl, rfl, rfl, rfl, rfl, rfl, rfl, rfl, [], by simp⟩

theorem DispatchFrame.trans {s t u : State} (h : DispatchFrame s t) (k : DispatchFrame t u) : DispatchFrame s u := by
  obtain ⟨es, he⟩ := h.trace
  obtain ⟨fs, hf⟩ := k.trace
  exact ⟨fun l => (k.handlers l).trans (h.handlers l), k.nandCtl.trans h.nandCtl, k.ecc.trans h.ecc, k.exp.trans h.exp,
    k.hsync.trans h.hsync, k.pressed.trans h.pressed, k.mods.trans h.mods, k.queue.trans h.queue, k.life.trans h.life,
    k.cfg.trans h.cfg, k.running.trans h.running, k.env.trans h.env, k.input.trans h.input, es ++ fs, by simp [he, hf]⟩

theorem setLine_frame (s : State) (l : Line) (a b : Bool) :
    DispatchFrame s (setLine s l { lineAt s l with level := a, disp := b }) := by
  refine ⟨fun m => ?_, rfl, rfl, rfl, rfl, rfl, rfl, rfl, rfl, rfl, rfl, rfl, rfl, [], by simp [setLine]⟩
  by_cases h : m = l
  · subst h; simp
  · simp [lineAt_setLine_ne _ _ h]

theorem emit_frame (s : State) (e : Event) : DispatchFrame s (emit s e) :=
  ⟨fun _ => rfl, rfl, rfl, rfl, rfl, rfl, rfl, rfl, rfl, rfl, rfl, rfl, rfl, [e], rfl⟩

theorem hCs_frame (s : State) (i : Fin 3) (v : Bool) : DispatchFrame s (hCs i v s) :=
  ⟨fun _ => rfl, rfl, rfl, rfl, rfl, rfl, rfl, rfl, rfl, rfl, rfl, rfl, rfl, [], by simp [hCs]⟩

/-- What `SigSet` can do (40_signal_bus R92): store the level and stop, or consume the edge and call the handler. -/
theorem sigSetWith_cases {onStrobe : Fin 11 → Bool → State → Result} {l : Line} {v : Bool} {s t : State}
    (h : sigSetWith onStrobe l v s = .next t) :
    (((lineAt s l).handler = none ∨ v = (lineAt s l).disp) ∧ t = setLine s l { lineAt s l with level := v }) ∨
    (∃ hd, (lineAt s l).handler = some hd ∧ v ≠ (lineAt s l).disp ∧
      callHandler onStrobe hd l v (setLine s l { lineAt s l with level := v, disp := v }) = .next t) := by
  unfold sigSetWith at h
  split at h
  · rename_i hn; cases h; exact .inl ⟨.inl hn, rfl⟩
  · rename_i hd hn
    split at h
    · rename_i hv; cases h; exact .inl ⟨.inr hv, rfl⟩
    · rename_i hv; exact .inr ⟨hd, hn, hv, h⟩

/-- `SigSet` keeps the dispatch frame if the strobe handler it is given does. -/
theorem sigSetWith_frame {onStrobe : Fin 11 → Bool → State → Result} {l : Line} {v : Bool} {s t : State}
    (hk : ∀ c a b, onStrobe c v a = .next b → DispatchFrame a b) (h : sigSetWith onStrobe l v s = .next t) :
    DispatchFrame s t := by
  rcases sigSetWith_cases h with ⟨-, rfl⟩ | ⟨hd, -, -, h⟩
  · exact setLine_frame s l v (lineAt s l).disp
  · refine (setLine_frame s l v v).trans ?_
    cases hd with
    | strobe c => exact hk c _ _ h
    | cs i => cases h; exact hCs_frame _ i v
    | ext => cases h; exact emit_frame _ _

/-- A `SigSet` inside a running sense recomputation does not touch the key matrix: a strobe handler there is a
re-entry. -/
theorem sigSetWith_reentry_km {l : Line} {v : Bool} {s t : State} (h : sigSetWith hStrobeReentry l v s = .next t) :
    t.km = s.km := by
  rcases sigSetWith_cases h with ⟨-, rfl⟩ | ⟨hd, -, -, h⟩
  · rfl
  · cases hd with
    | strobe c => simp [callHandler, hStrobeReentry] at h
    | cs i => cases h; rfl
    | ext => cases h; rfl

theorem senseRow_frame {r : Fin 7} {s t : State} (h : senseRow r s = .next t) : DispatchFrame s t ∧ t.km = s.km := by
  unfold senseRow at h
  split at h
  · cases h; exact ⟨.refl s, rfl⟩
  · exact ⟨sigSetWith_frame (fun c a b e => by simp [hStrobeReentry] at e) h, sigSetWith_reentry_km h⟩

/-- What the sense recomputation does (45_key_matrix R192): the rows' line transitions, then the new sense bits. -/
theorem kmRecompute_spec {s t : State} (h : kmRecompute s = .next t) :
    s.running.km = false ∧ DispatchFrame s t ∧ t.km = { s.km with sense := senseNow s } := by
  unfold kmRecompute at h
  split at h
  · cases h
  · rename_i hr
    obtain ⟨m, hm, ht⟩ := andThen_eq_next.1 h
    have hf := forEach_keeps (fun u => DispatchFrame (s.withRunning { s.running with km := true }) u ∧ u.km = s.km)
      (fun r a b ha hb => ⟨ha.1.trans (senseRow_frame hb).1, (senseRow_frame hb).2.trans ha.2⟩)
      ⟨.refl _, rfl⟩ hm
    cases ht
    have hrun : m.running = { s.running with km := true } := hf.1.running
    refine ⟨by simpa using hr, ?_, ?_⟩
    · have e := hf.1
      refine ⟨e.handlers, e.nandCtl, e.ecc, e.exp, e.hsync, ?_, e.mods, e.queue, e.life, e.cfg, ?_, e.env, e.input, e.trace⟩
      · exact e.pressed
      · simp at hr; simp [hrun]; rw [← hr]
    · have : rowSense m = rowSense s := by funext r; simp [rowSense, hf.2]
      simp [hf.2, senseNow, this]

theorem hStrobe_spec {c : Fin 11} {v : Bool} {s t : State} (h : hStrobe c v s = .next t) :
    s.running.km = false ∧ DispatchFrame s t ∧
      t.km.strobe = putBit s.km.strobe c.val v ∧ t.km.sense = senseNow t := by
  unfold hStrobe at h
  split at h
  · cases h
  · obtain ⟨a, b, d⟩ := kmRecompute_spec h
    refine ⟨by simpa using a, ⟨b.handlers, b.nandCtl, b.ecc, b.exp, b.hsync, b.pressed, b.mods, b.queue, b.life, b.cfg, b.running,
      b.env, b.input, b.trace⟩, by simp [d], ?_⟩
    have : rowSense t = rowSense (s.withKm { s.km with strobe := putBit s.km.strobe c.val v }) := by
      funext r; simp [rowSense, d]
    simp [d, senseNow, this]

/-- The frame of `SigSet` (40_signal_bus R92). -/
theorem sigSet_frame {l : Line} {v : Bool} {s t : State} (h : sigSet l v s = .next t) : DispatchFrame s t :=
  sigSetWith_frame (fun _ _ _ e => (hStrobe_spec e).2.1) h

/-- After a `SigSet` the key matrix is as before, or its sense bits are those of its pressed and strobe state. -/
theorem sigSet_km {l : Line} {v : Bool} {s t : State} (h : sigSet l v s = .next t) :
    t.km = s.km ∨ t.km.sense = senseNow t := by
  rcases sigSetWith_cases h with ⟨-, rfl⟩ | ⟨hd, -, -, h⟩
  · exact .inl rfl
  · cases hd with
    | strobe c => exact .inr (hStrobe_spec h).2.2.2
    | cs i => cases h; exact .inl rfl
    | ext => cases h; exact .inl rfl

theorem expoutLane_frame {diff new : Word} {b : Fin 32} {s t : State} (h : expoutLane diff new b s = .next t) :
    DispatchFrame s t ∧ (t.km = s.km ∨ t.km.sense = senseNow t) := by
  unfold expoutLane at h
  split at h
  · exact ⟨sigSet_frame h, sigSet_km h⟩
  · cases h; exact ⟨.refl s, .inl rfl⟩

theorem senseNow_congr {s t : State} (h : t.km.pressed = s.km.pressed) (k : t.km.strobe = s.km.strobe) :
    senseNow t = senseNow s := by
  have : rowSense t = rowSense s := by funext r; simp [rowSense, h, k]
  simp [senseNow, this]

/-- What the expander recomputation does (43_gpio_expander R165): the lanes' line transitions, then the new previous
visible level. -/
theorem expRecompute_spec {s t : State} (h : expRecompute s = .next t) :
    s.running.exp = false ∧
      DispatchFrame (s.withExp { s.exp with gpioPrev := visibleLevel s.exp.gpioOut s.exp.gpioDir }) t ∧
      (t.km = s.km ∨ t.km.sense = senseNow t) := by
  unfold expRecompute at h
  split at h
  · cases h
  · rename_i hr
    obtain ⟨m, hm, ht⟩ := andThen_eq_next.1 h
    have hf := forEach_keeps (fun u => DispatchFrame (s.withRunning { s.running with exp := true }) u ∧
        (u.km = s.km ∨ u.km.sense = senseNow u))
      (fun r a b ha hb => by
        obtain ⟨p, q⟩ := expoutLane_frame hb
        refine ⟨ha.1.trans p, ?_⟩
        rcases q with q | q
        · rcases ha.2 with w | w
          · exact .inl (q.trans w)
          · exact .inr (by rw [q, w]; exact (senseNow_congr (by rw [q]) (by rw [q])).symm)
        · exact .inr q)
      ⟨.refl _, .inl rfl⟩ hm
    cases ht
    have hrun : m.running = { s.running with exp := true } := hf.1.running
    have hexp : m.exp = s.exp := hf.1.exp
    refine ⟨by simpa using hr, ?_, ?_⟩
    · have e := hf.1
      refine ⟨e.handlers, e.nandCtl, e.ecc, ?_, e.hsync, e.pressed, e.mods, e.queue, e.life, e.cfg, ?_, e.env, e.input, e.trace⟩
      · simp [hexp]
      · simp at hr; simp [hrun]; rw [← hr]
    · exact hf.2

/-! ## Re-entry (60_exceptions R245, R248; log entry 17) -/

/-- The fault is a re-entry of `dev` that carries the trace of `s`, extended by the calls made since. -/
def ReentryAfter (dev : LoopDev) (s : State) (e : Fault) : Prop := ∃ es, e = .reentry dev (s.trace ++ es)

theorem ReentryAfter.of_frame {dev : LoopDev} {s t : State} {e : Fault} (h : DispatchFrame s t)
    (k : ReentryAfter dev t e) : ReentryAfter dev s e := by
  obtain ⟨fs, hf⟩ := h.trace
  obtain ⟨es, rfl⟩ := k
  exact ⟨fs ++ es, by simp [hf]⟩

/-- A loop whose iterations keep the frame faults in one of them. -/
theorem forEach_reentry {α : Type} {f : α → State → Result} {dev : LoopDev} {e : Fault}
    (hn : ∀ x s t, f x s = .next t → DispatchFrame s t) (hf : ∀ x s, f x s = .fault e → ReentryAfter dev s e)
    {xs : List α} {s : State} (h : forEach xs f s = .fault e) : ReentryAfter dev s e := by
  induction xs generalizing s with
  | nil => cases h
  | cons x xs ih =>
    rcases andThen_eq_fault.1 h with h | ⟨m, hm, h⟩
    · exact hf x s h
    · exact (ih h).of_frame (hn x s m hm)

/-- `SigSet` faults only in a strobe handler. -/
theorem sigSetWith_eq_fault {onStrobe : Fin 11 → Bool → State → Result} {l : Line} {v : Bool} {s : State} {e : Fault}
    (h : sigSetWith onStrobe l v s = .fault e) :
    ∃ c, (lineAt s l).handler = some (.strobe c) ∧ v ≠ (lineAt s l).disp ∧
      onStrobe c v (setLine s l { lineAt s l with level := v, disp := v }) = .fault e := by
  unfold sigSetWith at h
  split at h
  · cases h
  · rename_i hd hn
    split at h
    · cases h
    · rename_i hv
      cases hd with
      | strobe c => exact ⟨c, hn, hv, h⟩
      | cs i => cases h
      | ext => cases h

theorem senseRow_eq_fault {r : Fin 7} {s : State} {e : Fault} (h : senseRow r s = .fault e) :
    ReentryAfter .keyMatrix s e := by
  unfold senseRow at h
  split at h
  · cases h
  · obtain ⟨c, -, -, h⟩ := sigSetWith_eq_fault h
    cases h
    exact ⟨[], by simp [setLine]⟩

/-- What the sense recomputation can fault with: a re-entry, with the calls it has made. -/
theorem kmRecompute_eq_fault {s : State} {e : Fault} (h : kmRecompute s = .fault e) : ReentryAfter .keyMatrix s e := by
  unfold kmRecompute at h
  split at h
  · cases h; exact ⟨[], by simp⟩
  · rcases andThen_eq_fault.1 h with h | ⟨m, -, h⟩
    · exact forEach_reentry (s := s.withRunning { s.running with km := true }) (fun _ _ _ h => (senseRow_frame h).1)
        (fun _ _ => senseRow_eq_fault) h
    · cases h

/-- What `SigSet` can fault with: a re-entry, with the calls made so far. -/
theorem sigSet_eq_fault {l : Line} {v : Bool} {s : State} {e : Fault} (h : sigSet l v s = .fault e) :
    ReentryAfter .keyMatrix s e := by
  obtain ⟨c, -, -, h⟩ := sigSetWith_eq_fault h
  refine ReentryAfter.of_frame (setLine_frame s l v v) ?_
  unfold hStrobe at h
  split at h
  · cases h; exact ⟨[], by simp⟩
  · obtain ⟨es, he⟩ := kmRecompute_eq_fault h
    exact ⟨es, he⟩

/-- What the expander recomputation can fault with: a re-entry of either loop, with the calls made so far. -/
theorem expRecompute_eq_fault {s : State} {e : Fault} (h : expRecompute s = .fault e) :
    ∃ dev, ReentryAfter dev s e := by
  unfold expRecompute at h
  split at h
  · cases h; exact ⟨.expander, [], by simp⟩
  · rcases andThen_eq_fault.1 h with h | ⟨m, -, h⟩
    · refine ⟨.keyMatrix, forEach_reentry (s := s.withRunning { s.running with exp := true })
        (fun _ _ _ h => (expoutLane_frame h).1) (fun b t ht => ?_) h⟩
      unfold expoutLane at ht
      split at ht
      · exact sigSet_eq_fault ht
      · cases ht
    · cases h

/-! ## ECC -/

theorem visibleCount_eq_extract (e : Ecc) : visibleCount e = e.count.extractLsb' 0 8 :=
  BitVec.setWidth_eq_extractLsb' (by decide)

theorem getLsbD_visibleCount (e : Ecc) {k : Nat} (hk : k < 8) : (visibleCount e).getLsbD k = e.count.getLsbD k := by
  simp [visibleCount, hk]

theorem lineColumn_spec (i : BitVec 7) (e : Ecc) :
    DigestStep i e ⟨(lineColumn i e).1, (lineColumn i e).2.1, (lineColumn i e).2.2, e.count + 1#16⟩ where
  column k hk := by simp [lineColumn, hk, show k < 8 by omega, show k < 7 by omega]
  columnHigh k hk := by simp [lineColumn, show ¬ k < 6 by omega]
  oddLp0 h k hk := by
    simp only [lineColumn, h, if_true, BitVec.getLsbD_xor, BitVec.getLsbD_not, getLsbD_visibleCount e hk, hk,
      decide_true, Bool.true_and]
  oddLp1 h k hk := by simp only [lineColumn, h, if_true, BitVec.getLsbD_xor, getLsbD_visibleCount e hk]
  even h := by simp only [lineColumn, h, Bool.false_eq_true, if_false, and_self]
  counted := by simp [BitVec.toNat_add]

/-- What one byte does to the ECC state (42_nand_ecc R120, R122), under any `ECC_DIGEST`. -/
theorem digest_spec (c : Config) (b : Byte) (e : Ecc) : EccStep c b e (digest c b e) where
  standard h := by unfold digest accumulate; rw [h]; exact lineColumn_spec _ _
  other h := by unfold digest accumulate; rw [h, ← visibleCount_eq_extract]
  counted := by simp [digest, BitVec.toNat_add]

/-- The digest sees no more of the counter than its low byte (R114), and keeps what it does not see out of sight. -/
theorem digest_count (c : Config) (b : Byte) (e : Ecc) (n : Half)
    (h : n.extractLsb' 0 8 = e.count.extractLsb' 0 8) :
    digest c b { e with count := n } = { digest c b e with count := n + 1#16 } ∧
      (n + 1#16).extractLsb' 0 8 = (e.count + 1#16).extractLsb' 0 8 := by
  have hv : visibleCount { e with count := n } = visibleCount e := by
    rw [visibleCount_eq_extract, visibleCount_eq_extract]; exact h
  refine ⟨by simp only [digest, accumulate, lineColumn, hv], ?_⟩
  have := congrArg BitVec.toNat h
  simp only [BitVec.extractLsb'_toNat, Nat.shiftRight_zero] at this
  apply BitVec.eq_of_toNat_eq
  simp only [BitVec.extractLsb'_toNat, Nat.shiftRight_zero, BitVec.toNat_add, BitVec.toNat_ofNat]
  omega

/-- What a line-parity readback shows (30_encoding R71), under any permutation. -/
theorem eccInterleave_spec (p : EccReadback) (bits : Vector (Fin 8) 8) (e : Ecc) (k : Fin 8) :
    (eccInterleave p.even bits e.lp0 e.lp1).getLsbD k.val = readbackBit p bits e k := by
  unfold eccInterleave readbackBit
  cases p.even <;> fin_cases k <;> simp only [BitVec.getLsbD_append, BitVec.getLsbD_ofBool] <;> simp

/-! ## The environment -/

@[simp] theorem emit_trace (s : State) (e : Event) : (emit s e).trace = s.trace ++ [e] := rfl

/-- What `Flash.getIO` does: answers a byte, records the call, and touches nothing else. -/
theorem flashGetIO_spec (s : State) :
    ∃ env, (flashGetIO s).2 = (s.withEnv env).withTrace (s.trace ++ [.flashGetIO (flashGetIO s).1]) := by
  unfold flashGetIO
  split
  · exact ⟨_, rfl⟩
  · exact ⟨{ s.env with draws := s.env.draws + 1 }, rfl⟩

/-- What `Flash.getPins` does: answers a level, records the call, and touches nothing else. -/
theorem flashGetPins_spec (s : State) :
    ∃ env, (flashGetPins s).2 = (s.withEnv env).withTrace (s.trace ++ [.flashGetPins (flashGetPins s).1]) := by
  unfold flashGetPins
  split
  · exact ⟨_, rfl⟩
  · exact ⟨{ s.env with draws := s.env.draws + 1 }, rfl⟩

/-- What `Chip[i].read` does: answers a byte, records the call, and touches nothing else. -/
theorem chipRead_spec (i : Fin 3) (s : State) :
    ∃ env, (chipRead i s).2 = (s.withEnv env).withTrace (s.trace ++ [.chipRead i (chipRead i s).1]) := by
  unfold chipRead
  split
  · split
    · exact ⟨_, rfl⟩
    · exact ⟨{ s.env with draws := s.env.draws + 1 }, rfl⟩
  · exact ⟨s.env, rfl⟩

/-- What `Sched.scheduleRepeating` does: answers a handle, records the call, and touches nothing else. -/
theorem scheduleRepeating_spec (s : State) :
    ∃ env, (scheduleRepeating s).2 =
      (s.withEnv env).withTrace (s.trace ++ [.schedule s.cfg.tickHz (scheduleRepeating s).1]) := by
  unfold scheduleRepeating
  split
  · exact ⟨_, rfl⟩
  · exact ⟨{ s.env with draws := s.env.draws + 1 }, rfl⟩

/-- What the reads of the selected chips do: one byte and one recorded call for each, in order. -/
theorem chipReads_spec (is : List (Fin 3)) (s : State) :
    ∃ env, (chipReads is s).1.length = is.length ∧
      (chipReads is s).2 = (s.withEnv env).withTrace (s.trace ++ (is.zip (chipReads is s).1).map fun p => .chipRead p.1 p.2) := by
  induction is generalizing s with
  | nil => exact ⟨s.env, rfl, by simp [chipReads, State.withEnv, State.withTrace]⟩
  | cons i is ih =>
    obtain ⟨e1, h1⟩ := chipRead_spec i s
    obtain ⟨e2, h2, h3⟩ := ih (chipRead i s).2
    refine ⟨e2, by simp [chipReads, h2], ?_⟩
    simp only [chipReads]
    rw [h3]
    simp [h1, State.withEnv, State.withTrace]

/-! ## The queue -/

theorem enqueue_eq_next {code : Byte} {s t : State} (h : enqueue code s = .next t) :
    s.queue.len ≠ 16#5 ∧ t = s.withQueue { s.queue with
      buf := s.queue.buf.set ((s.queue.head.toNat + s.queue.len.toNat) % 16) code (by omega)
      len := s.queue.len + 1#5 } := by
  unfold enqueue at h
  split at h
  · cases h
  · rename_i hl; cases h; exact ⟨hl, rfl⟩

/-- An enqueue appends its code to the pending events (46_key_synth R218). -/
theorem enqueue_pending {code : Byte} {s : State} (h : s.queue.len.toNat < 16) :
    ∃ q, enqueue code s = .next (s.withQueue q) ∧ pending q = pending s.queue ++ [code] := by
  have hne : s.queue.len ≠ 16#5 := fun e => by rw [e] at h; exact absurd h (by decide)
  refine ⟨_, by unfold enqueue; rw [if_neg hne], ?_⟩
  have hl : (s.queue.len + 1#5).toNat = s.queue.len.toNat + 1 := by bv_omega
  apply List.ext_getElem
  · simp [pending, hl]
  · intro j h1 h2
    simp only [pending, List.length_map, List.length_range, hl] at h1
    simp only [pending, List.getElem_map, List.getElem_range, List.getElem_append, List.length_map, List.length_range,
      Vector.get_eq_getElem, Vector.getElem_set]
    split
    · rename_i e
      have : j = s.queue.len.toNat := by omega
      simp [this]
    · rename_i e
      have : j < s.queue.len.toNat := by
        rcases Nat.lt_or_ge j s.queue.len.toNat with w | w
        · exact w
        · exact absurd (show (s.queue.head.toNat + s.queue.len.toNat) % 16 = (s.queue.head.toNat + j) % 16 by
            rw [show j = s.queue.len.toNat by omega]) e
      simp [this]

theorem pending_length (q : Queue) : (pending q).length = q.len.toNat := by simp [pending]

end Sys2Proof.Machine
end

