-- ==== Sys2Proof/Laws/Completion.lean ====
section
/-! SUPPORT. When the shared operations that run handlers complete, and what the pure operations on bits compute. -/

namespace Sys2Proof.Machine

/-! ## Bits -/

theorem putBit_getLsbD {w : Nat} (x : BitVec w) (k : Nat) (v : Bool) {j : Nat} (hj : j < w) :
    (putBit x k v).getLsbD j = if j = k then v else x.getLsbD j := by
  unfold putBit
  cases v <;> simp [hj]
  · rw [Bool.and_comm]
  · rw [Bool.or_comm]

/-- The sense bits are those of R25 of 10_state. -/
theorem senseNow_getLsbD (s : State) (r : Fin 7) :
    (senseNow s).getLsbD r.val = sensed s.km.pressed s.km.strobe r := by
  have key : ∀ (f : Fin 7 → Bool) (r : Fin 7),
      ((List.finRange 7).foldl (fun acc r => putBit acc r.val (f r)) 0#7).getLsbD r.val = f r := by
    intro f r
    rw [show List.finRange 7 = [0, 1, 2, 3, 4, 5, 6] by decide]
    simp only [List.foldl, putBit_getLsbD _ _ _ r.isLt]
    fin_cases r <;> simp
  exact key (rowSense s) r

theorem append_toNat {a b : Nat} (x : BitVec a) (y : BitVec b) : (x ++ y).toNat = x.toNat * 2 ^ b + y.toNat := by
  rw [BitVec.toNat_append, ← Nat.shiftLeft_add_eq_or_of_lt y.isLt, Nat.shiftLeft_eq]

/-- The encoder's BUS word is the sum of its fields (30_encoding R61). -/
theorem busWord_eq_busFields (dir : Dir) (dev : Dev) (sz : Size) (off : Byte) (data : Half) :
    busWord dir dev sz off data = busFields (match dir with | .read => 0 | .write => 1)
      (match dev with | .nand => 0 | .exp => 1) sz off.toNat data.toNat := by
  have h1 := off.isLt
  have h2 := data.isLt
  apply BitVec.eq_of_toNat_eq
  unfold busWord busFields
  rw [append_toNat, append_toNat, BitVec.toNat_ofNat]
  cases dir <;> cases dev <;> cases sz <;> simp [sizeCode, devBits, sizeBits] <;> omega

/-! ## Completion -/

/-- Quiet wiring is a matter of the bindings alone, which no dispatch changes. -/
theorem SenseQuiet.of_frame {s t : State} (h : SenseQuiet s) (f : DispatchFrame s t) : SenseQuiet t :=
  fun r => by rw [f.handlers]; exact h r

/-- A `SigSet` on a line without a strobe handler completes, and does the same whatever a strobe handler would do. -/
theorem sigSetWith_completes {l : Line} (v : Bool) {s : State} (h : isStrobe (lineAt s l).handler = false) :
    ∃ t, (∀ onStrobe, sigSetWith onStrobe l v s = .next t) ∧ DispatchFrame s t ∧ t.km = s.km := by
  have hc : ∃ t, ∀ onStrobe, sigSetWith onStrobe l v s = .next t := by
    rcases hh : (lineAt s l).handler with _ | hd
    · exact ⟨_, fun _ => by unfold sigSetWith; rw [hh]⟩
    · by_cases hv : v = (lineAt s l).disp
      · exact ⟨setLine s l { lineAt s l with level := v }, fun _ => by
          unfold sigSetWith; rw [hh]; simp only; rw [if_pos hv, hh]⟩
      · cases hd with
        | strobe c => rw [hh] at h; cases h
        | cs i => exact ⟨_, fun _ => by unfold sigSetWith; rw [hh]; simp only; rw [if_neg hv]; rfl⟩
        | ext => exact ⟨_, fun _ => by unfold sigSetWith; rw [hh]; simp only; rw [if_neg hv]; rfl⟩
  obtain ⟨t, ht⟩ := hc
  exact ⟨t, ht, sigSetWith_frame (fun c a b e => by simp [hStrobeReentry] at e) (ht hStrobeReentry),
    sigSetWith_reentry_km (ht hStrobeReentry)⟩

/-- The sense recomputation completes if none runs and no SENSE line calls a strobe handler. -/
theorem kmRecompute_completes {s : State} (hr : s.running.km = false) (hq : SenseQuiet s) :
    ∃ t, kmRecompute s = .next t := by
  unfold kmRecompute
  rw [if_neg (by simp [hr])]
  obtain ⟨m, hm, -⟩ := forEach_completes (f := senseRow) SenseQuiet (fun r u hu => by
    unfold senseRow
    split
    · exact ⟨u, rfl, hu⟩
    · obtain ⟨t, ht, f, -⟩ := sigSetWith_completes (rowSense u r) (hu r)
      exact ⟨t, ht _, hu.of_frame f⟩) (List.finRange 7) (s := s.withRunning { s.running with km := true }) hq
  rw [hm]
  exact ⟨_, rfl⟩

/-- A `SigSet` completes under the same conditions, whatever its handler. -/
theorem sigSet_completes (l : Line) (v : Bool) {s : State} (hr : s.running.km = false) (hq : SenseQuiet s) :
    ∃ t, sigSet l v s = .next t := by
  unfold sigSet sigSetWith
  split
  · exact ⟨_, rfl⟩
  · split
    · exact ⟨_, rfl⟩
    · rename_i hd _ _
      cases hd with
      | strobe c =>
        unfold callHandler hStrobe
        simp only
        rw [if_neg (by show ¬s.running.km = true; simp [hr])]
        have hq' : SenseQuiet (setLine s l { lineAt s l with level := v, disp := v }) := hq.of_frame (setLine_frame s l v v)
        exact kmRecompute_completes hr hq'
      | cs i => exact ⟨_, rfl⟩
      | ext => exact ⟨_, rfl⟩

/-- The expander recomputation completes if neither loop runs and no SENSE line calls a strobe handler. -/
theorem expRecompute_completes {s : State} (hl : LoopsIdle s) (hq : SenseQuiet s) : ∃ t, expRecompute s = .next t := by
  unfold expRecompute
  rw [if_neg (by simp [hl.1])]
  generalize visibleLevel s.exp.gpioOut s.exp.gpioDir = new
  obtain ⟨m, hm, -⟩ := forEach_completes (f := expoutLane (s.exp.gpioPrev ^^^ new) new)
    (fun u => SenseQuiet u ∧ u.running.km = false) (fun b u hu => by
      unfold expoutLane
      split
      · obtain ⟨t, ht⟩ := sigSet_completes (expoutLine b) (new.getLsbD b.val) hu.2 hu.1
        have f := sigSet_frame ht
        exact ⟨t, ht, hu.1.of_frame f, by rw [f.running]; exact hu.2⟩
      · exact ⟨u, rfl, hu⟩) (List.finRange 32) (s := s.withRunning { s.running with exp := true }) ⟨hq, hl.2⟩
  simp only [hm]
  exact ⟨_, rfl⟩

end Sys2Proof.Machine
end

