-- ==== Sys2Proof/Laws/Exec.lean ====
section
/-! SUPPORT. What the compound operations can do (the key paths, the serial reads), and what every instruction but the two
lifecycle stimuli has in common. -/

namespace Sys2Proof.Machine

/-- Every stimulus but `ATTACH` and `TEARDOWN` asks for an attached block first (10_state R30). -/
theorem exec_gated (i : Instr) (s : State) (h1 : i ≠ .attach) (h2 : i ≠ .teardown) :
    ∃ r, exec i s = whenAttached s r := by
  cases i <;> first | exact absurd rfl h1 | exact absurd rfl h2 | exact ⟨_, rfl⟩

/-! ## Attachment -/

@[simp] theorem createElements_nandCtl (s : State) : (createElements s).nandCtl = 0x00#8 := rfl
@[simp] theorem createElements_ecc (s : State) : (createElements s).ecc = attachedEcc s.cfg s.env.draws := rfl
@[simp] theorem createElements_exp (s : State) : (createElements s).exp =
      { mode := 0#16, cmddata := 0#16, status := s.cfg.expStatusInit, power := 0#16, clock := 0#16, irctl := 0#16
        irr := s.cfg.expIrrInit, imask := 0#16, istat := 0#16, gpioDir := 0#32, gpioOut := 0#32, gpioPrev := 0#32 } := rfl
@[simp] theorem createElements_hsync (s : State) : (createElements s).hsync = false := rfl
@[simp] theorem createElements_sel (s : State) : (createElements s).sel = Vector.replicate 3 false := rfl
@[simp] theorem createElements_km (s : State) : (createElements s).km = ⟨Vector.replicate 8 0#11, 0#11, 0#7⟩ := rfl
@[simp] theorem createElements_mods (s : State) : (createElements s).mods = ⟨0#4, 0#6⟩ := rfl
@[simp] theorem createElements_life (s : State) : (createElements s).life = s.life := rfl
@[simp] theorem createElements_cfg (s : State) : (createElements s).cfg = s.cfg := rfl
@[simp] theorem createElements_running (s : State) : (createElements s).running = ⟨false, false⟩ := rfl
@[simp] theorem createElements_input (s : State) : (createElements s).input = s.input := rfl
@[simp] theorem createElements_trace (s : State) : (createElements s).trace = s.trace := rfl
@[simp] theorem createElements_head (s : State) : (createElements s).queue.head = 0#4 := rfl
@[simp] theorem createElements_len (s : State) : (createElements s).queue.len = 0#5 := rfl
@[simp] theorem createElements_handles (s : State) : (createElements s).env.handles = s.env.handles := rfl

@[simp] theorem get_tabulate {α : Type} {n : Nat} (f : Fin n → α) (i : Fin n) : (tabulate n f).get i = f i := by
  simp [tabulate, Vector.get_eq_getElem]

@[simp] theorem lineAt_createElements (s : State) (l : Line) :
    lineAt (createElements s) l = ⟨false, false, s.cfg.wiring.get l⟩ := by
  simp [lineAt, createElements, advanceDraws]

/-- What a completed `ATTACH` did (70_reset_and_hazards R260): the checks passed, the elements were created, the tick was
scheduled. -/
theorem execAttach_eq_next {s t : State} (h : execAttach s = .next t) :
    s.life = .detached ∧ configProblem s.cfg = none ∧
      ∃ tick env, t = (((createElements s).withEnv env).withTrace (s.trace ++ [.schedule s.cfg.tickHz tick])).withLife
        (.attached tick) := by
  unfold execAttach at h
  split at h
  · cases h
  · cases h
  · rename_i hl
    split at h
    · cases h
    · rename_i hc
      obtain ⟨env, he⟩ := scheduleRepeating_spec (createElements s)
      cases h
      refine ⟨hl, hc, (scheduleRepeating (createElements s)).1, env, ?_⟩
      rw [he]; rfl

/-! ## The synthesizer -/

theorem enqueue_frame {code : Byte} {s t : State} (h : enqueue code s = .next t) :
    ∃ q, t = s.withQueue q ∧ q.len = s.queue.len + 1#5 ∧ s.queue.len ≠ 16#5 :=
  ⟨_, (enqueue_eq_next h).2, rfl, (enqueue_eq_next h).1⟩

theorem injectIf_frame {wanted : State → Bool} {code : Byte} {k : Nat} {s t : State}
    (h : injectIf wanted code k s = .next t) : ∃ q m, t = (s.withQueue q).withMods m ∧ m.live = s.mods.live := by
  unfold injectIf at h
  split at h
  · obtain ⟨a, ha, hb⟩ := andThen_eq_next.1 h
    obtain ⟨q, rfl, -⟩ := enqueue_frame ha
    cases hb
    exact ⟨q, _, rfl, rfl⟩
  · cases h; exact ⟨s.queue, s.mods, rfl, rfl⟩

theorem releaseIf_frame {b : Bool} {code : Byte} {s t : State} (h : releaseIf b code s = .next t) :
    ∃ q, t = s.withQueue q := by
  unfold releaseIf at h
  split at h
  · obtain ⟨q, rfl, -⟩ := enqueue_frame h
    exact ⟨q, rfl⟩
  · cases h; exact ⟨s.queue, rfl⟩

/-- Two changes of queue and modifiers, one after the other, are one. -/
theorem synthFrame_trans {s a b : State} (h : ∃ q m, a = (s.withQueue q).withMods m ∧ m.live = s.mods.live)
    (k : ∃ q m, b = (a.withQueue q).withMods m ∧ m.live = a.mods.live) :
    ∃ q m, b = (s.withQueue q).withMods m ∧ m.live = s.mods.live := by
  obtain ⟨q1, m1, rfl, e1⟩ := h
  obtain ⟨q2, m2, rfl, e2⟩ := k
  exact ⟨q2, m2, rfl, e2.trans e1⟩

theorem inject_frame {e : BitVec 10} {s t : State} (h : inject e s = .next t) :
    ∃ q m, t = (s.withQueue q).withMods m ∧ m.live = s.mods.live := by
  unfold inject at h
  obtain ⟨s1, h1, h⟩ := andThen_eq_next.1 h
  obtain ⟨s2, h2, h⟩ := andThen_eq_next.1 h
  obtain ⟨s3, h3, h⟩ := andThen_eq_next.1 h
  obtain ⟨s4, h4, h⟩ := andThen_eq_next.1 h
  exact synthFrame_trans (synthFrame_trans (synthFrame_trans (synthFrame_trans (injectIf_frame h1) (injectIf_frame h2))
    (injectIf_frame h3)) (injectIf_frame h4)) (injectIf_frame h)

theorem queueFrame_trans {s a b : State} (h : ∃ q, a = s.withQueue q) (k : ∃ q, b = a.withQueue q) :
    ∃ q, b = s.withQueue q := by
  obtain ⟨q1, rfl⟩ := h
  obtain ⟨q2, rfl⟩ := k
  exact ⟨q2, rfl⟩

theorem release_frame {s t : State} (h : release s = .next t) :
    ∃ q, t = (s.withQueue q).withMods { s.mods with inj := 0#6 } := by
  unfold release at h
  obtain ⟨s1, h1, h⟩ := andThen_eq_next.1 h
  obtain ⟨s2, h2, h⟩ := andThen_eq_next.1 h
  obtain ⟨s3, h3, h⟩ := andThen_eq_next.1 h
  obtain ⟨s4, h4, h⟩ := andThen_eq_next.1 h
  obtain ⟨s5, h5, h⟩ := andThen_eq_next.1 h
  obtain ⟨q, rfl⟩ := queueFrame_trans (queueFrame_trans (queueFrame_trans (queueFrame_trans (releaseIf_frame h1)
    (releaseIf_frame h2)) (releaseIf_frame h3)) (releaseIf_frame h4)) (releaseIf_frame h5)
  cases h
  exact ⟨q, rfl⟩

/-- A `KEY` stimulus changes the queue and the modifiers only (46_key_synth R210). -/
theorem keyEvent_frame {kc : BitVec 7} {up : Bool} {s t : State} (h : keyEvent kc up s = .next t) :
    ∃ q m, t = (s.withQueue q).withMods m := by
  unfold keyEvent at h
  obtain ⟨a, ha, h⟩ := andThen_eq_next.1 h
  obtain ⟨q, rfl, -⟩ := enqueue_frame h
  split at ha
  · cases ha; exact ⟨q, _, rfl⟩
  · split at ha
    · obtain ⟨q', rfl⟩ := release_frame ha; exact ⟨q, _, rfl⟩
    · split at ha
      · cases ha; exact ⟨q, s.mods, rfl⟩
      · obtain ⟨q', m, rfl, -⟩ := inject_frame ha; exact ⟨q, m, rfl⟩

/-! ## The matrix-update path -/

/-- What applying an event touches (45_key_matrix R193 to R196): beyond what a dispatch may touch, the pressed bits of
the seven scanned rows. -/
theorem keyApply_frame {code : Byte} {s t : State} (h : keyApply code s = .next t) :
    DispatchFrame (s.withKm t.km) t ∧ t.km.pressed.get 7 = s.km.pressed.get 7 ∧
      (t.km = s.km ∨ t.km.sense = senseNow t) := by
  unfold keyApply at h
  split at h
  · cases h; exact ⟨.refl _, rfl, .inl rfl⟩
  · rename_i row col _
    split at h
    · rename_i hrc
      unfold keyCell at h
      split at h
      · cases h
      · obtain ⟨-, hf, hk⟩ := kmRecompute_spec h
        refine ⟨⟨hf.handlers, hf.nandCtl, hf.ecc, hf.exp, hf.hsync, rfl, hf.mods, hf.queue, hf.life, hf.cfg, hf.running,
          hf.env, hf.input, hf.trace⟩, ?_, .inr ?_⟩
        · have hne : row ≠ 7 := by omega
          rw [hf.pressed]
          simp [Vector.get_eq_getElem, Vector.getElem_set_ne, hne]
        · rw [hk]; exact (senseNow_congr (by rw [hk]) (by rw [hk])).symm
    · split at h
      · have hf := sigSet_frame h
        refine ⟨⟨hf.handlers, hf.nandCtl, hf.ecc, hf.exp, hf.hsync, rfl, hf.mods, hf.queue, hf.life, hf.cfg, hf.running,
          hf.env, hf.input, hf.trace⟩, by rw [hf.pressed], sigSet_km h⟩
      · cases h

/-- What a tick touches (46_key_synth R220). -/
theorem tickOnce_frame {s t : State} (h : tickOnce s = .next t) :
    DispatchFrame ((s.withQueue t.queue).withKm t.km) t ∧ t.km.pressed.get 7 = s.km.pressed.get 7 ∧
      (t.km = s.km ∨ t.km.sense = senseNow t) ∧
      (t.queue = s.queue ∨ s.queue.len ≠ 0#5 ∧
        t.queue = { s.queue with head := s.queue.head + 1#4, len := s.queue.len - 1#5 }) := by
  unfold tickOnce at h
  split at h
  · cases h; exact ⟨.refl _, rfl, .inl rfl, .inl rfl⟩
  · rename_i hl
    obtain ⟨hf, hp, hk⟩ := keyApply_frame h
    have hq := hf.queue
    simp only [State.withKm_queue, State.withQueue_queue] at hq
    refine ⟨⟨hf.handlers, hf.nandCtl, hf.ecc, hf.exp, hf.hsync, rfl, hf.mods, rfl, hf.life, hf.cfg, hf.running,
      hf.env, hf.input, hf.trace⟩, hp, hk, .inr ⟨hl, hq⟩⟩

/-- A tick takes the oldest event from the queue (46_key_synth R220). -/
theorem dequeue_pending (q : Queue) (h : q.len ≠ 0#5) :
    pending q = q.buf.get q.head.toFin :: pending { q with head := q.head + 1#4, len := q.len - 1#5 } := by
  have hl : q.len.toNat = (q.len - 1#5).toNat + 1 := by bv_omega
  have hh : (q.head + 1#4).toNat = (q.head.toNat + 1) % 16 := by simp [BitVec.toNat_add]
  simp only [pending, hh]
  rw [hl, List.range_succ_eq_map, List.map_cons, List.map_map]
  congr 1
  · simp [Vector.get_eq_getElem, Nat.mod_eq_of_lt q.head.isLt]
  · apply List.map_congr_left
    intro j _
    simp only [Function.comp, Vector.get_eq_getElem]
    congr 1
    omega

/-! ## The serial read -/

/-- Merging the bytes read takes at most one free value and touches nothing else (44_serial_demux R183). -/
theorem mergeReads_spec (bs : List Byte) (s : State) :
    ∃ n, (mergeReads bs s).2 = s.withEnv { s.env with draws := n } := by
  unfold mergeReads
  split
  · exact ⟨s.env.draws, rfl⟩
  · exact ⟨s.env.draws, rfl⟩
  · split
    · exact ⟨s.env.draws, rfl⟩
    · exact ⟨s.env.draws + 1, rfl⟩

end Sys2Proof.Machine
end

