-- ==== Sys2Proof/Laws/PerInstr.lean ====
section
/-! SUPPORT. The law of every instruction as syntax: its stimulus word lies in its own row of spec/opcode_table.json. -/

namespace Sys2Proof.Laws.TableRow

/-- The mask and the match of the instruction's row, written out from the table. -/
def row : Instr → Word × Word
  | .nandRdEcclpl _ => (0xFCFFFFFF#32, 0x00000000#32)
  | .nandRdEcclpu _ => (0xFCFFFFFF#32, 0x00040000#32)
  | .nandRdEcccp _ => (0xFCFFFFFF#32, 0x00080000#32)
  | .nandRdEcccnt _ => (0xFCFFFFFF#32, 0x000C0000#32)
  | .nandRdEccclr _ => (0xFCFFFFFF#32, 0x00100000#32)
  | .nandRdIo _ => (0xFCFFFFFF#32, 0x00140000#32)
  | .nandRdCtl _ => (0xFCFFFFFF#32, 0x00180000#32)
  | .expRdMode _ => (0xFCFFFFFF#32, 0x04000000#32)
  | .expRdCmddata _ => (0xFCFFFFFF#32, 0x04040000#32)
  | .expRdStatus _ => (0xFCFFFFFF#32, 0x04080000#32)
  | .expRdPower _ => (0xFCFFFFFF#32, 0x040C0000#32)
  | .expRdClock _ => (0xFCFFFFFF#32, 0x04100000#32)
  | .expRdIrr _ => (0xFCFFFFFF#32, 0x04140000#32)
  | .expRdImask _ => (0xFCFFFFFF#32, 0x04180000#32)
  | .expRdIstat _ => (0xFCFFFFFF#32, 0x041C0000#32)
  | .expRdGpdir _ => (0xFCFFFFFF#32, 0x04200000#32)
  | .expRdGpout _ => (0xFCFFFFFF#32, 0x04240000#32)
  | .expRdGprb _ => (0xFCFFFFFF#32, 0x04280000#32)
  | .nandRdUnknown _ _ => (0xFC00FFFF#32, 0x00000000#32)
  | .expRdUnknown _ _ => (0xFC00FFFF#32, 0x04000000#32)
  | .nandWrEcclpl _ _ => (0xFCFF0000#32, 0x10000000#32)
  | .nandWrEcclpu _ _ => (0xFCFF0000#32, 0x10040000#32)
  | .nandWrEcccp _ _ => (0xFCFF0000#32, 0x10080000#32)
  | .nandWrEcccnt _ _ => (0xFCFF0000#32, 0x100C0000#32)
  | .nandWrEccclr _ _ => (0xFCFF0000#32, 0x10100000#32)
  | .nandWrIo _ _ => (0xFCFF0000#32, 0x10140000#32)
  | .nandWrCtl _ _ => (0xFCFF0000#32, 0x10180000#32)
  | .expWrMode _ _ => (0xFCFF0000#32, 0x14000000#32)
  | .expWrCmddata _ _ => (0xFCFF0000#32, 0x14040000#32)
  | .expWrStatus _ _ => (0xFCFF0000#32, 0x14080000#32)
  | .expWrPower _ _ => (0xFCFF0000#32, 0x140C0000#32)
  | .expWrClock _ _ => (0xFCFF0000#32, 0x14100000#32)
  | .expWrIrctl _ _ => (0xFCFF0000#32, 0x14140000#32)
  | .expWrImask _ _ => (0xFCFF0000#32, 0x14180000#32)
  | .expWrIstat _ _ => (0xFCFF0000#32, 0x141C0000#32)
  | .expWrGpdir _ _ => (0xFCFF0000#32, 0x14200000#32)
  | .expWrGpout _ _ => (0xFCFF0000#32, 0x14240000#32)
  | .expWrGprb _ _ => (0xFCFF0000#32, 0x14280000#32)
  | .nandWrUnknown _ _ _ => (0xFC000000#32, 0x10000000#32)
  | .expWrUnknown _ _ _ => (0xFC000000#32, 0x14000000#32)
  | .sigSet _ _ => (0xFFFE0000#32, 0x20000000#32)
  | .sigGet _ => (0xFFFF0000#32, 0x30000000#32)
  | .sigReg _ _ => (0xFF000000#32, 0x40000000#32)
  | .keyDown _ => (0xFFFFFF80#32, 0x50000000#32)
  | .keyUp _ => (0xFFFFFF80#32, 0x50000080#32)
  | .tick => (0xFFFFFFFF#32, 0x60000000#32)
  | .sspRd => (0xFFFFFFFF#32, 0x70000000#32)
  | .sspWr _ => (0xFFFFFF00#32, 0x80000000#32)
  | .hsyncNotify => (0xFFFFFFFF#32, 0x90000000#32)
  | .attach => (0xFFFFFFFF#32, 0xA0000000#32)
  | .teardown => (0xFFFFFFFF#32, 0xB0000000#32)

/-- The word of the instruction, under the mask of its row, is the match of its row. -/
def Statement (i : Instr) : Prop := encode i &&& (row i).1 = (row i).2

/-- A mask given field by field works field by field. -/
theorem append_and (a ma : BitVec 4) (b mb c mc : BitVec 2) (d md : Byte) (e me : Half) :
    (a ++ b ++ c ++ d ++ e) &&& (ma ++ mb ++ mc ++ md ++ me) =
      (a &&& ma) ++ (b &&& mb) ++ (c &&& mc) ++ (d &&& md) ++ (e &&& me) := by
  simp only [BitVec.and_append]

/-- The word of a register access under a mask given field by field. -/
theorem busWord_and (dir : Dir) (dev : Dev) (sz : Size) (off : Byte) (data : Half)
    (mc : BitVec 4) (mb ms : BitVec 2) (mo : Byte) (md : Half) :
    busWord dir dev sz off data &&& (mc ++ mb ++ ms ++ mo ++ md) =
      ((match dir with | .read => 0x0#4 | .write => 0x1#4) &&& mc) ++ (devBits dev &&& mb) ++ (sizeBits sz &&& ms)
        ++ (off &&& mo) ++ (data &&& md) := by
  cases dir <;> exact append_and ..

/-- A read of a listed offset: every bit but the size is fixed. -/
theorem read_listed (dev : Dev) (sz : Size) (off : Byte) :
    busWord .read dev sz off 0#16 &&& 0xFCFFFFFF#32 = busWord .read dev .b1 off 0#16 := by
  have h := busWord_and .read dev sz off 0#16 0xF#4 0x3#2 0x0#2 0xFF#8 0xFFFF#16
  rw [show 0xFCFFFFFF#32 = 0xF#4 ++ 0x3#2 ++ 0x0#2 ++ 0xFF#8 ++ 0xFFFF#16 from rfl, h,
    show (0xFF#8) = BitVec.allOnes 8 from rfl, show (0x3#2) = BitVec.allOnes 2 from rfl, BitVec.and_allOnes,
    BitVec.and_allOnes, BitVec.and_zero]
  rfl

/-- A write of a listed offset: the size and the data are free. -/
theorem write_listed (dev : Dev) (sz : Size) (off : Byte) (data : Half) :
    busWord .write dev sz off data &&& 0xFCFF0000#32 = busWord .write dev .b1 off 0#16 := by
  have h := busWord_and .write dev sz off data 0xF#4 0x3#2 0x0#2 0xFF#8 0x0000#16
  rw [show 0xFCFF0000#32 = 0xF#4 ++ 0x3#2 ++ 0x0#2 ++ 0xFF#8 ++ 0x0000#16 from rfl, h,
    show (0xFF#8) = BitVec.allOnes 8 from rfl, show (0x3#2) = BitVec.allOnes 2 from rfl, BitVec.and_allOnes,
    BitVec.and_allOnes, BitVec.and_zero, BitVec.and_zero]
  rfl

/-- A read of an unlisted offset: the offset is free too. -/
theorem read_unlisted (dev : Dev) (sz : Size) (off : Byte) :
    busWord .read dev sz off 0#16 &&& 0xFC00FFFF#32 = busWord .read dev .b1 0#8 0#16 := by
  have h := busWord_and .read dev sz off 0#16 0xF#4 0x3#2 0x0#2 0x00#8 0xFFFF#16
  rw [show 0xFC00FFFF#32 = 0xF#4 ++ 0x3#2 ++ 0x0#2 ++ 0x00#8 ++ 0xFFFF#16 from rfl, h,
    show (0x3#2) = BitVec.allOnes 2 from rfl, BitVec.and_allOnes, BitVec.and_zero, BitVec.and_zero]
  rfl

/-- A write of an unlisted offset: size, offset and data are free. -/
theorem write_unlisted (dev : Dev) (sz : Size) (off : Byte) (data : Half) :
    busWord .write dev sz off data &&& 0xFC000000#32 = busWord .write dev .b1 0#8 0#16 := by
  have h := busWord_and .write dev sz off data 0xF#4 0x3#2 0x0#2 0x00#8 0x0000#16
  rw [show 0xFC000000#32 = 0xF#4 ++ 0x3#2 ++ 0x0#2 ++ 0x00#8 ++ 0x0000#16 from rfl, h,
    show (0x3#2) = BitVec.allOnes 2 from rfl, BitVec.and_allOnes, BitVec.and_zero, BitVec.and_zero, BitVec.and_zero]
  rfl

theorem nandRdEcclpl (sz : Size) : Statement (.nandRdEcclpl sz) := read_listed _ sz _
theorem nandRdEcclpu (sz : Size) : Statement (.nandRdEcclpu sz) := read_listed _ sz _
theorem nandRdEcccp (sz : Size) : Statement (.nandRdEcccp sz) := read_listed _ sz _
theorem nandRdEcccnt (sz : Size) : Statement (.nandRdEcccnt sz) := read_listed _ sz _
theorem nandRdEccclr (sz : Size) : Statement (.nandRdEccclr sz) := read_listed _ sz _
theorem nandRdIo (sz : Size) : Statement (.nandRdIo sz) := read_listed _ sz _
theorem nandRdCtl (sz : Size) : Statement (.nandRdCtl sz) := read_listed _ sz _
theorem expRdMode (sz : Size) : Statement (.expRdMode sz) := read_listed _ sz _
theorem expRdCmddata (sz : Size) : Statement (.expRdCmddata sz) := read_listed _ sz _
theorem expRdStatus (sz : Size) : Statement (.expRdStatus sz) := read_listed _ sz _
theorem expRdPower (sz : Size) : Statement (.expRdPower sz) := read_listed _ sz _
theorem expRdClock (sz : Size) : Statement (.expRdClock sz) := read_listed _ sz _
theorem expRdIrr (sz : Size) : Statement (.expRdIrr sz) := read_listed _ sz _
theorem expRdImask (sz : Size) : Statement (.expRdImask sz) := read_listed _ sz _
theorem expRdIstat (sz : Size) : Statement (.expRdIstat sz) := read_listed _ sz _
theorem expRdGpdir (sz : Size) : Statement (.expRdGpdir sz) := read_listed _ sz _
theorem expRdGpout (sz : Size) : Statement (.expRdGpout sz) := read_listed _ sz _
theorem expRdGprb (sz : Size) : Statement (.expRdGprb sz) := read_listed _ sz _
theorem nandRdUnknown (sz : Size) (off : Byte) : Statement (.nandRdUnknown sz off) := read_unlisted .nand sz off
theorem expRdUnknown (sz : Size) (off : Byte) : Statement (.expRdUnknown sz off) := read_unlisted .exp sz off
theorem nandWrEcclpl (sz : Size) (data : Half) : Statement (.nandWrEcclpl sz data) := write_listed _ sz _ data
theorem nandWrEcclpu (sz : Size) (data : Half) : Statement (.nandWrEcclpu sz data) := write_listed _ sz _ data
theorem nandWrEcccp (sz : Size) (data : Half) : Statement (.nandWrEcccp sz data) := write_listed _ sz _ data
theorem nandWrEcccnt (sz : Size) (data : Half) : Statement (.nandWrEcccnt sz data) := write_listed _ sz _ data
theorem nandWrEccclr (sz : Size) (data : Half) : Statement (.nandWrEccclr sz data) := write_listed _ sz _ data
theorem nandWrIo (sz : Size) (data : Half) : Statement (.nandWrIo sz data) := write_listed _ sz _ data
theorem nandWrCtl (sz : Size) (data : Half) : Statement (.nandWrCtl sz data) := write_listed _ sz _ data
theorem expWrMode (sz : Size) (data : Half) : Statement (.expWrMode sz data) := write_listed _ sz _ data
theorem expWrCmddata (sz : Size) (data : Half) : Statement (.expWrCmddata sz data) := write_listed _ sz _ data
theorem expWrStatus (sz : Size) (data : Half) : Statement (.expWrStatus sz data) := write_listed _ sz _ data
theorem expWrPower (sz : Size) (data : Half) : Statement (.expWrPower sz data) := write_listed _ sz _ data
theorem expWrClock (sz : Size) (data : Half) : Statement (.expWrClock sz data) := write_listed _ sz _ data
theorem expWrIrctl (sz : Size) (data : Half) : Statement (.expWrIrctl sz data) := write_listed _ sz _ data
theorem expWrImask (sz : Size) (data : Half) : Statement (.expWrImask sz data) := write_listed _ sz _ data
theorem expWrIstat (sz : Size) (data : Half) : Statement (.expWrIstat sz data) := write_listed _ sz _ data
theorem expWrGpdir (sz : Size) (data : Half) : Statement (.expWrGpdir sz data) := write_listed _ sz _ data
theorem expWrGpout (sz : Size) (data : Half) : Statement (.expWrGpout sz data) := write_listed _ sz _ data
theorem expWrGprb (sz : Size) (data : Half) : Statement (.expWrGprb sz data) := write_listed _ sz _ data
theorem nandWrUnknown (sz : Size) (off : Byte) (data : Half) : Statement (.nandWrUnknown sz off data) := write_unlisted _ sz off data
theorem expWrUnknown (sz : Size) (off : Byte) (data : Half) : Statement (.expWrUnknown sz off data) := write_unlisted _ sz off data
theorem sigSet (line : Line) (level : Bool) : Statement (.sigSet line level) := by
  unfold Statement row encode; revert line level; decide
theorem sigGet (line : Line) : Statement (.sigGet line) := by
  unfold Statement row encode; revert line; decide
theorem sigReg (line : Line) (handler : Handler) : Statement (.sigReg line handler) := by
  have hid : ∀ h : Byte, (0x4#4 ++ (0x0#4 ++ h) : BitVec (4 + (4 + 8))) = 0x40#8 ++ h := by decide
  have h := append_and 0x4#4 0xF#4 0x0#2 0x3#2 0x0#2 0x3#2 (hidOf handler) 0x00#8 (BitVec.ofNat 16 line.val) 0x0000#16
  rw [BitVec.and_zero, BitVec.and_zero] at h
  refine Eq.trans ?_ h
  exact congrArg (fun x : BitVec 16 => (x ++ BitVec.ofNat 16 line.val : BitVec (16 + 16)) &&& 0xFF000000#32)
    (hid (hidOf handler))
theorem keyDown (kc : BitVec 7) : Statement (.keyDown kc) := by
  unfold Statement row encode; revert kc; decide
theorem keyUp (kc : BitVec 7) : Statement (.keyUp kc) := by
  unfold Statement row encode; revert kc; decide
theorem tick : Statement .tick := rfl
theorem sspRd : Statement .sspRd := rfl
theorem sspWr (byte : Byte) : Statement (.sspWr byte) := by
  show (0x800000#24 ++ byte : BitVec (24 + 8)) &&& 0xFFFFFF00#32 = 0x80000000#32
  rw [show 0xFFFFFF00#32 = 0xFFFFFF#24 ++ 0x00#8 from rfl, BitVec.and_append, BitVec.and_zero]
  rfl
theorem hsyncNotify : Statement .hsyncNotify := rfl
theorem attach : Statement .attach := rfl
theorem teardown : Statement .teardown := rfl

end Sys2Proof.Laws.TableRow
end

