-- ==== Sys2Proof/Tests/Slice0.lean ====
section
/-! SUPPORT. Tests: the well-formedness smoke, the encodings of 95_test_vectors section 11, one or two single steps for
each stimulus with the values of 95_test_vectors, and for each statement with hypotheses a state that meets them. -/

namespace Sys2Proof.Tests

open Sys2Proof Sys2Proof.Machine

-- One theorem after the other: each of many kernel evaluations on a thread of its own takes a thread's stack.
set_option Elab.async false

/-! ## Helpers -/

/-- One stimulus word, run as the next stimulus of the state. -/
def run (s : State) (w : Nat) : Result := step (s.withFetchWord 32 w)

/-- The outcome is a next state of which `p` holds. -/
def goesTo (r : Result) (p : State → Bool) : Bool :=
  match r with
  | .next t => p t
  | _ => false

/-- The outcome is this fault. -/
def faultsWith (r : Result) (e : Fault) : Bool :=
  match r with
  | .fault f => f == e
  | _ => false

/-- The outcome is this refusal. -/
def refusedWith (r : Result) (e : Refusal) : Bool :=
  match r with
  | .refused f => f == e
  | _ => false

/-- The events a stimulus adds on the state after reset, whose trace holds the scheduler call. -/
def events (t : State) : List Event := t.trace.drop 1

/-- A state after reset with these ECC elements. -/
def eccState (lp0 lp1 cp : Byte) (count : Half) : State := State.reset.withEcc ⟨lp0, lp1, cp, count⟩

/-- A state after reset with these expander registers. -/
def expState (e : Expander) : State := State.reset.withExp e

/-- A state after reset with one line replaced. -/
def lineState (l : Line) (x : SignalLine) : State := setLine State.reset l x

/-- A state after reset with these pending event codes. -/
def queueState (cs : List Byte) : State :=
  State.reset.withQueue ⟨tabulate 16 fun k => cs.getD k.val 0x00#8, 0#4, BitVec.ofNat 5 cs.length⟩

/-! ## Well-formedness: a term that no word encodes is refused -/

theorem test_wellFormed_nandRdUnknown :
    (Instr.nandRdUnknown .b1 0x18#8).wellFormed = false ∧ (Instr.nandRdUnknown .b1 0x40#8).wellFormed = false ∧
    (Instr.nandRdUnknown .b1 0x1C#8).wellFormed = true ∧ (Instr.nandRdUnknown .b1 0x01#8).wellFormed = true := by decide

theorem test_wellFormed_expRdUnknown :
    (Instr.expRdUnknown .b2 0x28#8).wellFormed = false ∧ (Instr.expRdUnknown .b2 0xFF#8).wellFormed = false ∧
    (Instr.expRdUnknown .b2 0x2C#8).wellFormed = true ∧ (Instr.expRdUnknown .b2 0x3F#8).wellFormed = true := by decide

theorem test_wellFormed_nandWrUnknown :
    (Instr.nandWrUnknown .b1 0x00#8 1#16).wellFormed = false ∧ (Instr.nandWrUnknown .b1 0x40#8 1#16).wellFormed = false ∧
    (Instr.nandWrUnknown .b1 0x3C#8 1#16).wellFormed = true := by decide

theorem test_wellFormed_expWrUnknown :
    (Instr.expWrUnknown .b4 0x14#8 1#16).wellFormed = false ∧ (Instr.expWrUnknown .b4 0x80#8 1#16).wellFormed = false ∧
    (Instr.expWrUnknown .b4 0x21#8 1#16).wellFormed = true := by decide

/-! ## Decoding: words of 95_test_vectors section 11 and of the vectors, written out -/

theorem test_decode_nand_reads :
    decode 0x00000000#32 = .ok (.nandRdEcclpl .b1) ∧ decode 0x01040000#32 = .ok (.nandRdEcclpu .b2) ∧
    decode 0x00080000#32 = .ok (.nandRdEcccp .b1) ∧ decode 0x000C0000#32 = .ok (.nandRdEcccnt .b1) ∧
    decode 0x00100000#32 = .ok (.nandRdEccclr .b1) ∧ decode 0x02140000#32 = .ok (.nandRdIo .b4) ∧
    decode 0x00180000#32 = .ok (.nandRdCtl .b1) ∧ decode 0x003F0000#32 = .ok (.nandRdUnknown .b1 0x3F#8) := by decide

theorem test_decode_nand_writes :
    decode 0x10000055#32 = .ok (.nandWrEcclpl .b1 0x0055#16) ∧ decode 0x10040012#32 = .ok (.nandWrEcclpu .b1 0x0012#16) ∧
    decode 0x10080001#32 = .ok (.nandWrEcccp .b1 0x0001#16) ∧ decode 0x100C0001#32 = .ok (.nandWrEcccnt .b1 0x0001#16) ∧
    decode 0x101000FF#32 = .ok (.nandWrEccclr .b1 0x00FF#16) ∧ decode 0x101400EF#32 = .ok (.nandWrIo .b1 0x00EF#16) ∧
    decode 0x10180005#32 = .ok (.nandWrCtl .b1 0x0005#16) ∧
    decode 0x103C00AA#32 = .ok (.nandWrUnknown .b1 0x3C#8 0x00AA#16) := by decide

theorem test_decode_expander_reads :
    decode 0x05000000#32 = .ok (.expRdMode .b2) ∧ decode 0x05040000#32 = .ok (.expRdCmddata .b2) ∧
    decode 0x05080000#32 = .ok (.expRdStatus .b2) ∧ decode 0x050C0000#32 = .ok (.expRdPower .b2) ∧
    decode 0x05100000#32 = .ok (.expRdClock .b2) ∧ decode 0x05140000#32 = .ok (.expRdIrr .b2) ∧
    decode 0x05180000#32 = .ok (.expRdImask .b2) ∧ decode 0x051C0000#32 = .ok (.expRdIstat .b2) ∧
    decode 0x05200000#32 = .ok (.expRdGpdir .b2) ∧ decode 0x05240000#32 = .ok (.expRdGpout .b2) ∧
    decode 0x05280000#32 = .ok (.expRdGprb .b2) ∧ decode 0x052C0000#32 = .ok (.expRdUnknown .b2 0x2C#8) := by decide

theorem test_decode_expander_writes :
    decode 0x1500ABCD#32 = .ok (.expWrMode .b2 0xABCD#16) ∧ decode 0x15041234#32 = .ok (.expWrCmddata .b2 0x1234#16) ∧
    decode 0x15080001#32 = .ok (.expWrStatus .b2 0x0001#16) ∧ decode 0x150C0080#32 = .ok (.expWrPower .b2 0x0080#16) ∧
    decode 0x1510FFFF#32 = .ok (.expWrClock .b2 0xFFFF#16) ∧ decode 0x151400AA#32 = .ok (.expWrIrctl .b2 0x00AA#16) ∧
    decode 0x1418ABCD#32 = .ok (.expWrImask .b1 0xABCD#16) ∧ decode 0x151C0F0F#32 = .ok (.expWrIstat .b2 0x0F0F#16) ∧
    decode 0x152000FF#32 = .ok (.expWrGpdir .b2 0x00FF#16) ∧ decode 0x15240185#32 = .ok (.expWrGpout .b2 0x0185#16) ∧
    decode 0x1528FFFF#32 = .ok (.expWrGprb .b2 0xFFFF#16) ∧
    decode 0x152C0001#32 = .ok (.expWrUnknown .b2 0x2C#8 0x0001#16) := by decide

theorem test_decode_signal_bus :
    decode 0x20010004#32 = .ok (.sigSet 4 true) ∧ decode 0x2000000D#32 = .ok (.sigSet 13 false) ∧
    decode 0x2001003F#32 = .ok (.sigSet 63 true) ∧ decode 0x3000001C#32 = .ok (.sigGet 28) ∧
    decode 0x40100023#32 = .ok (.sigReg 35 (.cs 0)) ∧ decode 0x400A000A#32 = .ok (.sigReg 10 (.strobe 10)) ∧
    decode 0x4012001F#32 = .ok (.sigReg 31 (.cs 2)) ∧ decode 0x40800017#32 = .ok (.sigReg 23 .ext) := by decide

theorem test_decode_keys_serial_lifecycle :
    decode 0x50000027#32 = .ok (.keyDown 0x27#7) ∧ decode 0x500000A7#32 = .ok (.keyUp 0x27#7) ∧
    decode 0x60000000#32 = .ok .tick ∧ decode 0x70000000#32 = .ok .sspRd ∧ decode 0x800000A5#32 = .ok (.sspWr 0xA5#8) ∧
    decode 0x90000000#32 = .ok .hsyncNotify ∧ decode 0xA0000000#32 = .ok .attach ∧
    decode 0xB0000000#32 = .ok .teardown := by decide

theorem test_decode_refuses :
    decode 0x00400000#32 = .error .offsetOutsideSpan ∧ decode 0x08000000#32 = .error .reservedBlock ∧
    decode 0x03000000#32 = .error .reservedSize ∧ decode 0x00000001#32 = .error .readWithData ∧
    decode 0x20010040#32 = .error .lineOutsideCatalog ∧ decode 0x20020004#32 = .error .strayBits ∧
    decode 0x400B0000#32 = .error .reservedHandler ∧ decode 0x50000100#32 = .error .strayBits ∧
    decode 0x60000001#32 = .error .strayBits ∧ decode 0x80000100#32 = .error .strayBits ∧
    decode 0xC0000000#32 = .error .reservedClass ∧ decode 0xFFFFFFFF#32 = .error .reservedClass := by decide

/-- The encodings written out in section 11. -/
theorem test_encode :
    encode (.expRdClock .b2) = 0x05100000#32 ∧ encode (.nandWrIo .b1 0x00EF#16) = 0x101400EF#32 ∧
    encode (.sigSet 63 true) = 0x2001003F#32 ∧ encode (.sigReg 31 (.cs 2)) = 0x4012001F#32 ∧
    encode (.keyUp 0x38#7) = 0x500000B8#32 := by decide

/-! ## NAND and ECC (vectors D1, D2, N1 to N4) -/

theorem test_ecc_readbacks :
    let s := eccState 0xFC#8 0x03#8 0x1A#8 0x0003#16
    goesTo (run s 0x00000000) (fun t => events t == [.ret (.bus .b1 0x55#32)]) = true ∧
    goesTo (run s 0x00040000) (fun t => events t == [.ret (.bus .b1 0x5A#32)]) = true ∧
    goesTo (run s 0x00080000) (fun t => events t == [.ret (.bus .b1 0x1A#32)]) = true ∧
    goesTo (run s 0x000C0000) (fun t => events t == [.ret (.bus .b1 0x03#32)]) = true := by decide +kernel

theorem test_ecccnt_wraps :
    goesTo (run (eccState 0x00#8 0x00#8 0x00#8 0x0101#16) 0x000C0000)
      (fun t => events t == [.ret (.bus .b1 0x01#32)]) = true := by decide +kernel

/-- R114: a digest of another kind does not see the counter's bits above bit 7 either. -/
theorem test_other_digest_sees_count_modulo_256 :
    accumulate { tc1 with eccUpdate := .other } 0xA5#8 ⟨0x01#8, 0x02#8, 0x03#8, 0xFF04#16⟩ =
      accumulate { tc1 with eccUpdate := .other } 0xA5#8 ⟨0x01#8, 0x02#8, 0x03#8, 0x0004#16⟩ := rfl

theorem test_nandRdEccclr :
    goesTo (run State.reset 0x00100000)
      (fun t => events t == [.log .nand .read 0x10#8, .ret (.bus .b1 0#32)]) = true := by decide +kernel

theorem test_nandRdIo :
    let s := (eccState 0xFF#8 0x00#8 0x15#8 0x0001#16).withEnv ⟨[0x02#8], [], [], [], 0⟩
    goesTo (run s 0x00140000)
      (fun t => t.ecc == ⟨0x01#8, 0x01#8, 0x03#8, 0x0002#16⟩ &&
        events t == [.flashGetIO 0x02#8, .ret (.bus .b1 0x02#32)]) = true := by decide +kernel

theorem test_nandRdCtl :
    let s := State.reset.withNandCtl 0x05#8
    goesTo (run (s.withEnv ⟨[], [true], [], [], 0⟩) 0x00180000)
      (fun t => events t == [.flashGetPins true, .ret (.bus .b1 0x25#32)]) = true ∧
    goesTo (run (s.withEnv ⟨[], [false], [], [], 0⟩) 0x00180000)
      (fun t => events t == [.flashGetPins false, .ret (.bus .b1 0x05#32)]) = true := by decide +kernel

theorem test_nand_unknown :
    goesTo (run State.reset 0x001C0000) (fun t => events t == [.log .nand .read 0x1C#8, .ret (.bus .b1 0#32)]) = true ∧
    goesTo (run State.reset 0x103C00AA) (fun t => events t == [.log .nand .write 0x3C#8]) = true := by decide +kernel

theorem test_nand_readbacks_ignore_writes :
    goesTo (run State.reset 0x10000055) (fun t => events t == [.log .nand .write 0x00#8]) = true ∧
    goesTo (run State.reset 0x10040012) (fun t => events t == [.log .nand .write 0x04#8]) = true ∧
    goesTo (run State.reset 0x10080012) (fun t => events t == [.log .nand .write 0x08#8]) = true ∧
    goesTo (run State.reset 0x100C0012) (fun t => events t == [.log .nand .write 0x0C#8]) = true := by decide +kernel

theorem test_nandWrEccclr :
    goesTo (run (eccState 0xFC#8 0x03#8 0x1A#8 0x0003#16) 0x101000FF)
      (fun t => t.ecc == ⟨0x00#8, 0x00#8, 0x00#8, 0x0000#16⟩ && events t == []) = true := by decide +kernel

/-- Vector D2: four bytes wide, one byte transferred. -/
theorem test_nandWrIo :
    goesTo (run (eccState 0x00#8 0x00#8 0x00#8 0x0000#16) 0x12140201)
      (fun t => t.ecc == ⟨0xFF#8, 0x00#8, 0x15#8, 0x0001#16⟩ && events t == [.flashSetIO 0x01#8]) = true := by
  decide +kernel

/-- Vector N3, 00 00 00 01: position 3 enters the line parity. -/
theorem test_nandWrIo_position :
    goesTo (run (eccState 0x00#8 0x00#8 0x00#8 0x0003#16) 0x10140001)
      (fun t => t.ecc == ⟨0xFC#8, 0x03#8, 0x15#8, 0x0004#16⟩) = true := by decide +kernel

theorem test_nandWrCtl :
    goesTo (run State.reset 0x101800FF)
      (fun t => t.nandCtl == 0xDF#8 && events t == [.flashSetPins true true true true true]) = true ∧
    goesTo (run State.reset 0x10180125)
      (fun t => t.nandCtl == 0x05#8 && events t == [.flashSetPins false true true false false]) = true := by
  decide +kernel

/-- Vector N2. -/
theorem test_colpar :
    [0x00#8, 0x01#8, 0x02#8, 0x04#8, 0x08#8, 0x10#8, 0x80#8, 0x03#8, 0x07#8, 0xA5#8].map (colpar tc1) =
      [0x00#7, 0x55#7, 0x56#7, 0x59#7, 0x5A#7, 0x65#7, 0x6A#7, 0x03#7, 0x5A#7, 0x00#7] := by decide +kernel

/-- A NAND block with the offsets of IO and control exchanged, ready/busy at bit 7, and `lp1` in the even positions. -/
def variant : State :=
  { eccState 0xFC#8 0x03#8 0x1A#8 0x0003#16 with
    cfg := { tc1 with
      regs := { standardMap with nand := { standardMap.nand with io := 0x18#8, ctl := 0x14#8 } }
      ctlBits := { standardCtlBits with rb := 7 }
      eccReadback := { standardReadback with even := .lp1 } } }

theorem test_configured_registers :
    goesTo (run variant 0x101400FF) (fun t => t.nandCtl == 0x7F#8) = true ∧
    goesTo (run variant 0x101800EF) (fun t => events t == [.flashSetIO 0xEF#8]) = true ∧
    goesTo (run variant 0x00000000) (fun t => events t == [.ret (.bus .b1 0xAA#32)]) = true := by decide +kernel

/-! ## Expander (vectors D1, X1, X3, X4, X5) -/

/-- The expander's registers of the tests, each with a value of its own. -/
def exp0 : Expander :=
  { mode := 0xABCD#16, cmddata := 0x1234#16, status := 0x0000#16, power := 0x80C0#16, clock := 0xFFFF#16,
    irctl := 0x00AA#16, irr := 0x0000#16, imask := 0x00FF#16, istat := 0x0F0F#16, gpioDir := 0x000001F0#32,
    gpioOut := 0x00000184#32, gpioPrev := 0x00000180#32 }

theorem test_expander_reads :
    let s := expState exp0
    ([(0x05000000, 0xABCD#32), (0x05040000, 0x1234#32), (0x05080000, 0x0000#32), (0x050C0000, 0x80C0#32),
      (0x05100000, 0xFFFF#32), (0x05140000, 0x0000#32), (0x05180000, 0x00FF#32), (0x051C0000, 0x0F0F#32)].all
        fun x => goesTo (run s x.1) fun t => events t == [.ret (.bus .b2 x.2)] && t.exp == exp0) = true := by
  decide +kernel

theorem test_gpio_reads :
    let s := expState exp0
    ([(0x05200000, 0x01F0#32), (0x05240000, 0x0184#32), (0x05280000, 0x0180#32)].all
        fun x => goesTo (run s x.1) fun t => events t == [.ret (.bus .b2 x.2)]) = true := by decide +kernel

theorem test_exp_unknown :
    goesTo (run State.reset 0x05210000) (fun t => events t == [.log .exp .read 0x21#8, .ret (.bus .b2 0#32)]) = true ∧
    goesTo (run State.reset 0x152C0001) (fun t => events t == [.log .exp .write 0x2C#8]) = true := by decide +kernel

theorem test_exp_readonly_ignore_writes :
    goesTo (run State.reset 0x15081234) (fun t => events t == [.log .exp .write 0x08#8] && t.exp.status == 0#16) = true ∧
    goesTo (run State.reset 0x1528FFFF) (fun t => events t == [.log .exp .write 0x28#8]) = true := by decide +kernel

theorem test_expander_writes :
    goesTo (run State.reset 0x1500ABCD) (fun t => t.exp == { State.reset.exp with mode := 0xABCD#16 }) = true ∧
    goesTo (run State.reset 0x15041234) (fun t => t.exp == { State.reset.exp with cmddata := 0x1234#16 }) = true ∧
    goesTo (run State.reset 0x1510FFFF) (fun t => t.exp == { State.reset.exp with clock := 0xFFFF#16 }) = true ∧
    goesTo (run State.reset 0x151400AA) (fun t => t.exp == { State.reset.exp with irctl := 0x00AA#16 }) = true ∧
    goesTo (run State.reset 0x1418ABCD) (fun t => t.exp == { State.reset.exp with imask := 0xABCD#16 }) = true ∧
    goesTo (run State.reset 0x151C0F0F) (fun t => t.exp == { State.reset.exp with istat := 0x0F0F#16 }) = true := by
  decide +kernel

/-- Vector X3. -/
theorem test_expWrPower :
    ([(0x150C0080, 0x80C0#16), (0x150C0001, 0x0001#16), (0x150C7FBF, 0xFFFF#16), (0x150C8000, 0x8000#16),
      (0x150C0040, 0x0040#16), (0x150C00FF, 0x80FF#16)].all
        fun x => goesTo (run State.reset x.1) fun t => t.exp.power == x.2) = true := by decide +kernel

/-- Vector X1: a direction change removes and adds outputs, low to high. -/
theorem test_expWrGpdir :
    let s := setLine (expState { exp0 with gpioDir := 0x000000FF#32, gpioPrev := 0x00000084#32 }) (expoutLine 2)
      ⟨true, true, some .ext⟩
    goesTo (run s 0x152001F0) (fun t => events t == [.ext (expoutLine 2) false, .ext (expoutLine 8) true] &&
      t.exp.gpioDir == 0x000001F0#32 && t.exp.gpioPrev == 0x00000180#32) = true := by decide +kernel

theorem test_expWrGpout :
    goesTo (run (expState { State.reset.exp with gpioDir := 0x000000FF#32 }) 0x15240185)
      (fun t => events t == [.ext (expoutLine 0) true, .ext (expoutLine 2) true, .ext (expoutLine 7) true] &&
        t.exp.gpioOut == 0x00000185#32 && t.exp.gpioPrev == 0x00000085#32) = true := by decide +kernel

/-- Program C: an expander output bound to a chip select; bit 2 up, then bit 3 down selects chip 0. -/
theorem test_expWrGpout_nested :
    let s := setLine (expState { State.reset.exp with
        gpioDir := 0x0000000C#32, gpioOut := 0x00000008#32, gpioPrev := 0x00000008#32 }) (expoutLine 3)
      ⟨true, true, some (.cs 0)⟩
    goesTo (run s 0x15240004) (fun t => events t == [.ext (expoutLine 2) true] && t.sel == #v[true, false, false]) = true := by
  decide +kernel

theorem test_hsyncNotify :
    goesTo (run State.reset 0x90000000) (fun t => t.hsync && events t == [.ext 28 true]) = true ∧
    goesTo (run ((lineState 28 ⟨true, true, some .ext⟩).withHsync true) 0x90000000)
      (fun t => !t.hsync && events t == [.ext 28 false]) = true := by decide +kernel

/-! ## Signal Bus (vectors S1 to S3) -/

theorem test_sigSet_strobe :
    goesTo (run State.reset 0x20010004)
      (fun t => t.km.strobe == 0x010#11 && lineAt t 4 == ⟨true, true, some (.strobe 4)⟩ && events t == []) = true := by
  decide +kernel

/-- Vector S3: a line set while it had no handler, then bound, still owes its edge. -/
theorem test_sigSet_unbound :
    goesTo (run (lineState 23 ⟨false, false, none⟩) 0x20010017)
      (fun t => lineAt t 23 == ⟨true, false, none⟩ && events t == []) = true ∧
    goesTo (run (lineState 23 ⟨true, false, some .ext⟩) 0x20010017)
      (fun t => lineAt t 23 == ⟨true, true, some .ext⟩ && events t == [.ext 23 true]) = true := by decide +kernel

/-- A block whose rows 0 and 1 are about to change and whose SENSE[1] line calls a strobe handler. -/
def rebound : State :=
  setLine (State.reset.withKm ⟨(State.reset.km.pressed.set 0 0x001#11).set 1 0x001#11, 0x001#11, 0#7⟩) (senseLine 1)
    ⟨false, false, some (.strobe 1)⟩

/-- 00_scope R6: the call on SENSE[0] is in the trace of a stimulus that ends in a re-entry on SENSE[1]. -/
theorem test_reentry_keeps_calls :
    faultsWith (run rebound 0x20010001) (.reentry .keyMatrix (State.reset.trace ++ [.ext 11 true])) = true := by
  decide +kernel

theorem test_sigGet :
    goesTo (run (lineState 28 ⟨true, true, some .ext⟩) 0x3000001C) (fun t => events t == [.ret (.level true)]) = true := by
  decide +kernel

theorem test_sigReg :
    goesTo (run State.reset 0x40100023)
      (fun t => lineAt t 35 == ⟨false, false, some (.cs 0)⟩ && events t == []) = true := by decide +kernel

/-! ## Serial demultiplexer (vector X6) -/

theorem test_sspWr :
    goesTo (run (State.reset.withSel #v[true, false, true]) 0x80000055)
      (fun t => events t == [.chipWrite 0 0x55#8, .chipWrite 2 0x55#8]) = true ∧
    goesTo (run State.reset 0x80000011) (fun t => events t == []) = true := by decide +kernel

theorem test_sspRd :
    goesTo (run ((State.reset.withSel #v[true, false, true]).withEnv ⟨[], [], [0xA0#8, 0xC2#8], [], 0⟩) 0x70000000)
      (fun t => events t == [.chipRead 0 0xA0#8, .chipRead 2 0xC2#8, .ret (.byte 0xA0#8)]) = true ∧
    goesTo (run State.reset 0x70000000) (fun t => events t == [.ret (.byte 0x00#8)]) = true := by decide +kernel

/-! ## Keys (vectors M1, M4, M6, K2, K9, F1, F2) -/

theorem test_keyDown_injects :
    goesTo (run (State.reset.withMods ⟨0x1#4, 0x00#6⟩) 0x50000027)
      (fun t => pending t.queue == [0x38#8, 0xAA#8, 0x23#8] && t.mods == ⟨0x1#4, 0x18#6⟩) = true ∧
    goesTo (run State.reset 0x5000002A) (fun t => pending t.queue == [0x2A#8] && t.mods == ⟨0x1#4, 0x00#6⟩) = true := by
  decide +kernel

theorem test_keyUp_releases :
    goesTo (run (State.reset.withMods ⟨0x1#4, 0x18#6⟩) 0x500000A7)
      (fun t => pending t.queue == [0xB8#8, 0x2A#8, 0xA3#8] && t.mods == ⟨0x1#4, 0x00#6⟩) = true := by decide +kernel

/-- Vector F2: one event fits behind fifteen, the next does not. -/
theorem test_keyDown_overflow :
    goesTo (run (queueState (List.replicate 15 0x9E#8)) 0x50000020) (fun t => t.queue.len == 16#5) = true ∧
    faultsWith (run (queueState (List.replicate 16 0x9E#8)) 0x50000020) (.queueOverflow 0x20#8) = true := by decide +kernel

/-- Vector M1: the tick that applies a key in a strobed column moves its sense line. -/
theorem test_tick_cell :
    goesTo (run ((queueState [0x1E#8, 0x9E#8]).withKm { State.reset.km with strobe := 0x002#11 }) 0x60000000)
      (fun t => events t == [.ext 15 true] && t.km.sense == 0x10#7 && t.km.pressed.get 4 == 0x002#11 &&
        t.queue.head == 1#4 && t.queue.len == 1#5) = true := by decide +kernel

/-- Vectors M4 and M6: a special key drives its line, an unmapped one is dropped. -/
theorem test_tick_special_and_unmapped :
    goesTo (run (queueState [0x01#8]) 0x60000000) (fun t => events t == [.ext 20 true] && t.queue.len == 0#5) = true ∧
    goesTo (run (queueState [0x7F#8]) 0x60000000) (fun t => events t == [] && t.queue.len == 0#5) = true := by
  decide +kernel

/-! ## Lifecycle (vectors F3, F4) -/

theorem test_attach :
    goesTo (run ((State.detached tc1).withEnv ⟨[], [], [], [5], 0⟩) 0xA0000000)
      (fun t => t.life == .attached 5 && t.trace == [.schedule 32 5] && t.nandCtl == 0x00#8 &&
        lineAt t 10 == ⟨false, false, some (.strobe 10)⟩) = true := by decide +kernel

theorem test_attach_configError :
    faultsWith (run (State.detached { tc1 with kcAlt := 0x2A#7 }) 0xA0000000) (.configError .modifierKeys) = true ∧
    faultsWith (run (State.detached { tc1 with tickHz := 0 }) 0xA0000000) (.configError .tickRate) = true ∧
    faultsWith (run (State.detached { tc1 with expBase := tc1.nandBase + 0x20 }) 0xA0000000)
      (.configError .registerRanges) = true := by decide +kernel

theorem test_teardown :
    goesTo (run (queueState [0x1E#8]) 0xB0000000)
      (fun t => t.life == .tornDown && events t == [.cancel 0]) = true ∧
    refusedWith (run (State.reset.withLife .tornDown) 0x60000000) .tornDown = true := by decide +kernel

/-! ## Accesses by address (20_memory R41) -/

theorem test_bus_address :
    let s := State.reset
    goesTo (step (s.withInput [.memWrite 0x1080000C .b2 0x00000080#32])) (fun t => t.exp.power == 0x80C0#16) = true ∧
    goesTo (step (s.withInput [.memRead 0x0C00003F .b1])) (fun t => events t ==
      [.log .nand .read 0x3F#8, .ret (.bus .b1 0#32)]) = true ∧
    refusedWith (step (s.withInput [.memRead 0x0C000040 .b1])) (.unclaimedAddress 0x0C000040) = true ∧
    refusedWith (step (s.withInput [.memRead 0x107FFFFF .b1])) (.unclaimedAddress 0x107FFFFF) = true := by decide +kernel

/-! ## Witnesses: a state and operands that meet the hypotheses of each statement that has some -/

theorem goesTo_next {r : Result} {p : State → Bool} (h : goesTo r p = true) : ∃ t, r = .next t ∧ p t = true := by
  cases r with
  | next t => exact ⟨t, rfl, h⟩
  | fault e => cases h
  | refused e => cases h

theorem faultsWith_fault {r : Result} {e : Fault} (h : faultsWith r e = true) : r = .fault e := by
  cases r with
  | next t => cases h
  | fault f => simp [faultsWith] at h; rw [h]
  | refused f => cases h

theorem reset_attached : Attached State.reset := ⟨0, rfl⟩
theorem reset_idle : LoopsIdle State.reset := ⟨rfl, rfl⟩
theorem reset_session : SessionOk State.reset := fun _ => ⟨by decide +kernel, rfl, rfl⟩
theorem reset_quiet : SenseQuiet State.reset := by unfold SenseQuiet; decide +kernel
theorem reset_sense : SenseExternal State.reset := by unfold SenseExternal ExternalAt; decide +kernel
theorem reset_expout : ExpoutExternal State.reset := by unfold ExpoutExternal ExternalAt; decide +kernel
theorem reset_hsync : ExternalAt State.reset hsyncLine State.reset.hsync := by unfold ExternalAt; decide +kernel

/-- An empty input; a word that decodes, one that does not; the host's word. -/
theorem witness_StepRunsTheDecodedStimulus :
    State.reset.input = [] ∧ (State.reset.withInput [.word 0x60000000#32]).input = [.word 0x60000000#32] ∧
      decode 0x60000000#32 = .ok .tick ∧ decode 0xC0000000#32 = .error .reservedClass ∧
      State.reset.cfg.regs = standardMap := by decide +kernel

/-- Both ends of both ranges, and the addresses next to them. -/
theorem witness_StepRoutesBusAccessesByAddress :
    tc1.nandBase + 0x40 ≤ tc1.expBase ∧ (0x00#8).toNat < 0x40 ∧ (0x3F#8).toNat < 0x40 ∧
    (State.reset.withInput [.memRead (baseOf tc1 .nand + (0x3F#8).toNat) .b1]).input =
      .memRead (baseOf tc1 .nand + (0x3F#8).toNat) .b1 :: [] ∧
    (State.reset.withInput [.memWrite (baseOf tc1 .exp + (0x00#8).toNat) .b2 5#32]).input =
      .memWrite (baseOf tc1 .exp + (0x00#8).toNat) .b2 5#32 :: [] ∧
    (∀ dev, tc1.nandBase + 0x40 < baseOf tc1 dev ∨ baseOf tc1 dev + 0x40 ≤ tc1.nandBase + 0x40) ∧
    (∀ dev, tc1.expBase - 1 < baseOf tc1 dev ∨ baseOf tc1 dev + 0x40 ≤ tc1.expBase - 1) :=
  ⟨by decide, by decide, by decide, rfl, rfl, fun dev => by cases dev <;> decide, fun dev => by cases dev <;> decide⟩

/-- The standard map, and an offset of neither device's registers. -/
theorem witness_RegistersAreFoundAtTheirOffsets :
    ∀ dev : Dev, (offsetsOf standardMap dev).Nodup ∧ 0x3F#8 ∉ offsetsOf standardMap dev := fun dev => by
  cases dev <;> decide

theorem witness_EncodeThenDecodeIsIdentity :
    (Instr.nandRdUnknown .b4 0x3F#8).wellFormed = true ∧ (Instr.sigReg 63 .ext).wellFormed = true := by decide

theorem witness_DecodeThenEncodeIsIdentity :
    decode 0x2001003F#32 = .ok (.sigSet 63 true) ∧ decode 0x003F0000#32 = .ok (.nandRdUnknown .b1 0x3F#8) := by decide

/-- The ends of the ranges of lines with an external handler. -/
theorem witness_ResetStateHoldsTheSpecsValues :
    ([11, 28, 32, 63] : List Line).all (fun l => 11 ≤ l.val && (l.val < 29 || 32 ≤ l.val)) = true := by decide

/-- TC1 is a well-formed configuration. -/
theorem tc1_wellFormed : WellFormedConfig tc1 where
  rangesFit := by decide
  rangesApart := by decide
  keymapLength := by decide +kernel
  keymapEntries := by
    have h : tc1.keymap.all (fun e => match e with
        | .unmapped => true
        | .cell row col => decide (row ≤ 7 ∧ col ≤ 10 ∧ (row = 7 → col ≤ 4))) = true := by decide +kernel
    intro e he row col hc
    have := List.all_eq_true.1 h e he
    subst hc
    exact of_decide_eq_true this
  remapLength := by decide +kernel
  modifiersDistinct := by decide
  modifiersKept := by decide +kernel
  handlerOnOneLine := by
    intro l m h hne hl hm
    have get : ∀ l, tc1.wiring.get l = some (defaultHandler l) := fun l => get_tabulate _ l
    have one : ∀ l m, defaultHandler l ≠ .ext → defaultHandler l = defaultHandler m → l = m := by decide +kernel
    rw [get] at hl hm
    cases hl
    exact one l m hne (Option.some.inj hm).symm
  senseNotStrobe := by decide +kernel
  specialNotStrobe := by decide +kernel
  ticks := by decide
  invertLength := by decide

/-- A detached block with a handle to come, and `ECC_ATTACH_CLEARS`. -/
theorem witness_AttachCreatesTheInitialState :
    let s := (State.detached { tc1 with eccAttachClears := true }).withEnv ⟨[], [], [], [7], 0⟩
    s.life = .detached ∧ s.cfg.eccAttachClears = true ∧ s.env.handles = [7] ∧ WellFormedConfig s.cfg :=
  let w := tc1_wellFormed
  ⟨rfl, rfl, rfl, w.rangesFit, w.rangesApart, w.keymapLength, w.keymapEntries, w.remapLength, w.modifiersDistinct,
    w.modifiersKept, w.handlerOnOneLine, w.senseNotStrobe, w.specialNotStrobe, w.ticks, w.invertLength⟩

theorem witness_AttachAdmitsExactlyWellFormedConfigurations :
    (State.detached tc1).life = .detached ∧ WellFormedConfig tc1 ∧ ¬ WellFormedConfig { tc1 with tickHz := 0 } :=
  ⟨rfl, tc1_wellFormed, fun h => absurd h.ticks (by decide)⟩

theorem witness_OnlyAttachedBlocksTakeStimuli :
    (State.detached tc1).life = .detached ∧ Instr.tick ≠ .attach ∧ Instr.tick ≠ .teardown ∧
      (State.reset.withLife .tornDown).life = .tornDown ∧ State.reset.life = .attached 0 ∧
      ∃ t, exec .tick State.reset = .next t :=
  ⟨rfl, by decide, by decide, rfl, rfl, (goesTo_next (p := fun _ => true) (by decide +kernel)).imp fun _ h => h.1⟩

theorem witness_TeardownCancelsTheTickOnce : State.reset.life = .attached 0 := rfl

theorem witness_EccReadbackRegisters : Attached State.reset := reset_attached
theorem witness_EccClearZeroesEverything : Attached State.reset := reset_attached
theorem witness_ExpanderRegisterReads : Attached State.reset := reset_attached
theorem witness_ExpanderStorageWrites : Attached State.reset := reset_attached
theorem witness_PowerWriteForcesTwoBits : Attached State.reset := reset_attached
theorem witness_SigGetAndSigReg : Attached State.reset := reset_attached
theorem witness_SerialWriteReachesEverySelectedChip : Attached (State.reset.withSel #v[true, false, true]) := ⟨0, rfl⟩

/-- With and without an answer to come. -/
theorem witness_NandControlRegister :
    Attached (State.reset.withEnv ⟨[], [true], [], [], 0⟩) ∧ Attached State.reset ∧ State.reset.env.flashReady = [] :=
  ⟨⟨0, rfl⟩, ⟨0, rfl⟩, rfl⟩

/-- With and without an answer to come; a byte of odd and one of even parity. -/
theorem witness_NandIoDigestsAndForwards :
    Attached (State.reset.withEnv ⟨[0x01#8], [], [], [], 0⟩) ∧ Attached State.reset ∧ State.reset.env.flashBytes = [] ∧
      (colpar tc1 0x01#8).getLsbD 6 = true ∧ (colpar tc1 0x03#8).getLsbD 6 = false :=
  ⟨⟨0, rfl⟩, ⟨0, rfl⟩, rfl, by decide +kernel, by decide +kernel⟩

/-- Counters 3 and 259, and counters that wrap at the next byte. -/
theorem witness_CounterHighBitsAreNeverVisible :
    SameVisibleCount (eccState 0xFC#8 0x03#8 0x1A#8 0x0003#16) (eccState 0xFC#8 0x03#8 0x1A#8 0x0103#16) ∧
      SameVisibleCount (eccState 0x00#8 0x00#8 0x00#8 0xFFFF#16) (eccState 0x00#8 0x00#8 0x00#8 0x00FF#16) :=
  ⟨⟨rfl, by decide⟩, rfl, by decide⟩

/-- The same byte written in two bytes' width and read in four. -/
theorem witness_EccDependsOnlyOnTheBytes :
    [Transfer.put .b2 0x0101#16].map Transfer.byte = [Transfer.get .b4 0x01#8].map Transfer.byte ∧ Attached State.reset ∧
      Attached (State.reset.withHsync true) ∧ State.reset.cfg.colpar = (State.reset.withHsync true).cfg.colpar ∧
      State.reset.cfg.eccUpdate = (State.reset.withHsync true).cfg.eccUpdate :=
  ⟨by decide, ⟨0, rfl⟩, ⟨0, rfl⟩, rfl, rfl⟩

/-- A whole page of 256 bytes. -/
theorem witness_EccStateIsLineAndColumnParity :
    Attached State.reset ∧ State.reset.cfg.colpar = colparTable ∧ State.reset.cfg.eccUpdate = .lineColumn ∧
      State.reset.ecc = ⟨0x00#8, 0x00#8, 0x00#8, 0x0000#16⟩ ∧ (List.replicate 256 0x01#8).length ≤ 256 :=
  ⟨reset_attached, rfl, rfl, rfl, by decide +kernel⟩

/-- The wrong bit in the last byte of a page. -/
theorem witness_SingleBitErrorIsLocated :
    Attached State.reset ∧ State.reset.cfg.colpar = colparTable ∧ State.reset.cfg.eccUpdate = .lineColumn ∧
      State.reset.ecc = ⟨0x00#8, 0x00#8, 0x00#8, 0x0000#16⟩ ∧
      (List.replicate 255 0x01#8).length + 1 + ([] : List Byte).length ≤ 256 :=
  ⟨reset_attached, rfl, rfl, rfl, by decide +kernel⟩

theorem witness_NandAccessesAlwaysComplete :
    Attached State.reset ∧ (0x00#8).toNat < 0x40 ∧ (0x3F#8).toNat < 0x40 := ⟨reset_attached, by decide, by decide⟩

/-- The first offsets of either kind, and the last. -/
theorem witness_UnrecognisedAccessesOnlyLog :
    Attached State.reset ∧ 0x1C ≤ (0x1C#8).toNat ∧ 0x2C ≤ (0x2C#8).toNat ∧ (0x01#8).toNat % 4 ≠ 0 ∧
      (0x3F#8).toNat < 0x40 := ⟨reset_attached, by decide, by decide, by decide, by decide⟩

theorem witness_TraceIsNeverRead : ∃ t, exec .hsyncNotify State.reset = .next t :=
  (goesTo_next (p := fun _ => true) (by decide +kernel)).imp fun _ h => h.1

/-- The state after reset with notification on a status read. -/
def notifying : State := { State.reset with cfg := { tc1 with hsyncOnExpStatusRead := true } }

/-- Such a state whose HSYNC and SENSE[0] lines call strobe handlers and whose cell (0,0) is down. -/
def reentrant : State :=
  setLine (setLine (notifying.withKm { notifying.km with pressed := notifying.km.pressed.set 0 0x001#11 })
    hsyncLine ⟨false, false, some (.strobe 0)⟩) (senseLine 0) ⟨false, false, some (.strobe 1)⟩

/-- Both settings of the notification; a notification that completes and one that does not. -/
theorem witness_StatusAndIrrReadAsConstants :
    (Attached State.reset ∧ SessionOk State.reset ∧ State.reset.cfg.hsyncOnExpStatusRead = false) ∧
    (Attached notifying ∧ SessionOk notifying ∧ notifying.cfg.hsyncOnExpStatusRead = true ∧
      ExternalAt notifying hsyncLine notifying.hsync ∧ ∃ m, exec .hsyncNotify notifying = .next m) ∧
    (Attached reentrant ∧ SessionOk reentrant ∧ reentrant.cfg.hsyncOnExpStatusRead = true ∧
      exec .hsyncNotify reentrant = .fault (.reentry .keyMatrix reentrant.trace)) :=
  ⟨⟨reset_attached, reset_session, rfl⟩,
    ⟨⟨0, rfl⟩, fun _ => ⟨by decide +kernel, rfl, rfl⟩, rfl, reset_hsync,
      (goesTo_next (p := fun _ => true) (by decide +kernel)).imp fun _ h => h.1⟩,
    ⟨0, rfl⟩, fun _ => ⟨by decide +kernel, rfl, rfl⟩, rfl, faultsWith_fault (by decide +kernel)⟩

theorem witness_GpioWritesDispatchChangedBits : Attached State.reset ∧ LoopsIdle State.reset :=
  ⟨reset_attached, reset_idle⟩

/-- A block with an EXPOUT line bound to a chip select. -/
theorem witness_GpioWritesCompleteWithFrame :
    let s := lineState (expoutLine 3) ⟨true, true, some (.cs 0)⟩
    Attached s ∧ LoopsIdle s ∧ SenseQuiet s :=
  ⟨⟨0, rfl⟩, ⟨rfl, rfl⟩, by unfold SenseQuiet; decide +kernel⟩

theorem witness_GpioWritesDriveExternalLinesLowToHigh :
    Attached State.reset ∧ LoopsIdle State.reset ∧ ExpoutExternal State.reset :=
  ⟨reset_attached, reset_idle, reset_expout⟩

theorem witness_GpioFinalStateIsOrderIndependent :
    Attached State.reset ∧ LoopsIdle State.reset ∧ ExpoutExternal State.reset :=
  ⟨reset_attached, reset_idle, reset_expout⟩

theorem witness_HsyncNotifyTogglesTheLine :
    Attached State.reset ∧ ExternalAt State.reset hsyncLine State.reset.hsync := ⟨reset_attached, reset_hsync⟩

/-- One state for each case: no handler, no edge, and an edge for each kind of handler. -/
theorem witness_SigSetStoresAndDispatches :
    (Attached (lineState 23 ⟨false, false, none⟩) ∧
      (lineAt (lineState 23 ⟨false, false, none⟩) 23).handler = none) ∧
    (Attached State.reset ∧ State.reset.running.km = false ∧ false = (lineAt State.reset 0).disp ∧
      true ≠ (lineAt State.reset 0).disp ∧ true ≠ (lineAt State.reset 31).disp ∧ true ≠ (lineAt State.reset 63).disp ∧
      (lineAt State.reset 63).handler = some .ext ∧ (lineAt State.reset 31).handler = some (.cs 2) ∧
      (lineAt State.reset 10).handler = some (.strobe 10) ∧ true ≠ (lineAt State.reset 10).disp) :=
  ⟨⟨⟨0, rfl⟩, by decide +kernel⟩, reset_attached, rfl, by decide +kernel⟩

theorem witness_SigSetCompletesWithFrame : Attached State.reset ∧ LoopsIdle State.reset ∧ SenseQuiet State.reset :=
  ⟨reset_attached, reset_idle, reset_quiet⟩

theorem witness_RedundantSigSetDispatchesNothing : ∃ t, exec (.sigSet 4 true) State.reset = .next t :=
  (goesTo_next (p := fun _ => true) (by decide +kernel)).imp fun _ h => h.1

/-- No chip, one chip and several; answers to come or none; a chip that is not fitted. -/
theorem witness_SerialReadReadsEverySelectedChip :
    let one := (State.reset.withSel #v[false, true, false]).withEnv ⟨[], [], [0xB1#8], [], 0⟩
    let two := (State.reset.withSel #v[true, false, true]).withEnv ⟨[], [], [0xA0#8, 0xC2#8], [], 0⟩
    let unfitted : State := { one with cfg := { tc1 with chipFitted := #v[true, false, true] } }
    let mixed : State := { two with cfg := { tc1 with chipFitted := #v[false, true, true] } }
    Attached State.reset ∧ Attached one ∧ Attached two ∧ Attached unfitted ∧ Attached mixed ∧
      (((List.finRange 3).filter fun i => mixed.sel.get i).filter fun i => mixed.cfg.chipFitted.get i) = [2] ∧
      ((List.finRange 3).filter fun i => State.reset.sel.get i) = [] ∧
      ((List.finRange 3).filter fun i => one.sel.get i) = [1] ∧
      ((List.finRange 3).filter fun i => two.sel.get i) = [0, 2] ∧ (∀ i, two.cfg.chipFitted.get i = true) ∧
      two.env.chipBytes.length = 2 ∧ two.cfg.demuxMerge = .first ∧ unfitted.cfg.chipFitted.get 1 = false :=
  ⟨⟨0, rfl⟩, ⟨0, rfl⟩, ⟨0, rfl⟩, ⟨0, rfl⟩, ⟨0, rfl⟩, by decide +kernel⟩

/-- A block with the last cell (6,10) down and its column strobed, the sense bit not yet recomputed. -/
theorem witness_SenseRecomputationVisitsChangedRows :
    let s := State.reset.withKm ⟨State.reset.km.pressed.set 6 0x400#11, 0x400#11, 0#7⟩
    s.running.km = false ∧ SenseQuiet s ∧ sensed s.km.pressed s.km.strobe 6 ≠ s.km.sense.getLsbD 6 :=
  ⟨rfl, reset_quiet, by decide +kernel⟩

/-- The first and the last strobe line. -/
theorem witness_StrobeChangeReportsChangedRows :
    Attached State.reset ∧ LoopsIdle State.reset ∧ SenseExternal State.reset ∧
      (lineAt State.reset 0).handler = some (.strobe 0) ∧ true ≠ (lineAt State.reset 0).disp ∧
      (lineAt State.reset 10).handler = some (.strobe 10) ∧ true ≠ (lineAt State.reset 10).disp :=
  ⟨reset_attached, reset_idle, reset_sense, by decide +kernel⟩

/-- The handler on the second of two changed rows, the first external; and on the last row, the only changed one. -/
theorem witness_StrobeHandlerOnSenseLineIsReentry :
    (let new := sensed rebound.km.pressed rebound.km.strobe;
      rebound.running.km = false ∧
      ((List.finRange 7).filter fun q => decide (q < 1) && (new q != rebound.km.sense.getLsbD q.val)) = [0] ∧
      ExternalAt rebound (senseLine 0) (rebound.km.sense.getLsbD 0) ∧
      isStrobe (lineAt rebound (senseLine 0)).handler = false ∧
      new 1 ≠ rebound.km.sense.getLsbD 1 ∧ (lineAt rebound (senseLine 1)).handler = some (.strobe 1) ∧
      (lineAt rebound (senseLine 1)).disp ≠ new 1) ∧
    (let s := setLine (State.reset.withKm ⟨State.reset.km.pressed.set 6 0x400#11, 0x400#11, 0#7⟩) (senseLine 6)
        ⟨false, false, some (.strobe 10)⟩;
      let new := sensed s.km.pressed s.km.strobe;
      s.running.km = false ∧
      ((List.finRange 7).filter fun q => decide (q < 6) && (new q != s.km.sense.getLsbD q.val)) = [] ∧
      new 6 ≠ s.km.sense.getLsbD 6 ∧ (lineAt s (senseLine 6)).handler = some (.strobe 10) ∧
      (lineAt s (senseLine 6)).disp ≠ new 6) := by unfold ExternalAt; decide +kernel

/-- Nothing pending; an unmapped key, the last special column that has a key, a matrix cell. -/
theorem witness_TickAppliesTheOldestEvent :
    Attached State.reset ∧ pending State.reset.queue = [] ∧ Attached (queueState [0x7F#8]) ∧
      pending (queueState [0x7F#8, 0x1E#8]).queue = [0x7F#8, 0x1E#8] ∧
      tc1.keymap.getD ((0x7F#8).extractLsb' 0 7).toNat .unmapped = .unmapped ∧
      pending (queueState [0xC9#8]).queue = [0xC9#8] ∧
      tc1.keymap.getD ((0xC9#8).extractLsb' 0 7).toNat .unmapped = .cell 7 (4 : Fin 5).val ∧
      tc1.keymap.getD ((0x38#8).extractLsb' 0 7).toNat .unmapped = .cell (5 : Fin 7).val (10 : Fin 11).val ∧
      (queueState [0x38#8]).running.km = false :=
  ⟨reset_attached, by decide +kernel, ⟨0, rfl⟩, by decide +kernel⟩

theorem witness_TickCompletesWithFrame :
    let s := queueState [0x1E#8]
    Attached s ∧ SessionOk s ∧ LoopsIdle s ∧ SenseQuiet s ∧
      ∀ (col : Fin 5) (c : Fin 11), (lineAt s (specialLine col)).handler ≠ some (.strobe c) :=
  ⟨⟨0, rfl⟩, reset_session, ⟨rfl, rfl⟩, reset_quiet, by decide +kernel⟩

theorem witness_AppliedKeyReportsChangedRows :
    let s := queueState [0x38#8, 0xB8#8]
    Attached s ∧ LoopsIdle s ∧ SenseExternal s ∧ pending s.queue = 0x38#8 :: [0xB8#8] ∧
      s.cfg.keymap.getD ((0x38#8).extractLsb' 0 7).toNat .unmapped = .cell (5 : Fin 7).val (10 : Fin 11).val :=
  ⟨⟨0, rfl⟩, ⟨rfl, rfl⟩, reset_sense, by decide +kernel⟩

/-- A queue with room and a full one, and the last queue on which one code fits. -/
theorem witness_KeyEnqueuesItsCodes :
    let full := queueState (List.replicate 16 0x9E#8)
    let last := queueState (List.replicate 15 0x9E#8)
    Attached full ∧ Attached last ∧ full.queue.len.toNat ≤ 16 ∧ last.queue.len.toNat ≤ 16 ∧
      16 < (pending full.queue).length + (keyOutcome full.cfg full.mods 0x20#7 false).1.length ∧
      (pending last.queue).length + (keyOutcome last.cfg last.mods 0x20#7 false).1.length = 16 :=
  ⟨⟨0, rfl⟩, ⟨0, rfl⟩, by decide +kernel⟩

/-- The fullest queue with room for five codes. -/
theorem witness_KeyEnqueuesOneToFiveCodes :
    let s := queueState (List.replicate 11 0x9E#8)
    Attached s ∧ s.queue.len.toNat + 5 = 16 ∧ s.queue.len.toNat ≤ 16 ∧ ∃ t, exec (.keyUp 0x20#7) s = .next t :=
  ⟨⟨0, rfl⟩, by decide +kernel, by decide +kernel,
    (goesTo_next (p := fun _ => true) (by decide +kernel)).imp fun _ h => h.1⟩

/-- A step whose stimulus writes what the invariant is about. -/
theorem witness_StepKeepsGpioBank :
    GpioBankOk (State.reset.withFetchWord 32 0x1520FFFF) ∧ ∃ t, run State.reset 0x1520FFFF = .next t :=
  ⟨by unfold GpioBankOk; decide +kernel, (goesTo_next (p := fun _ => true) (by decide +kernel)).imp fun _ h => h.1⟩

theorem witness_StepKeepsKeyMatrix :
    KeyMatrixOk (State.reset.withFetchWord 32 0x2001000A) ∧ ∃ t, run State.reset 0x2001000A = .next t :=
  ⟨by unfold KeyMatrixOk; decide +kernel, (goesTo_next (p := fun _ => true) (by decide +kernel)).imp fun _ h => h.1⟩

theorem witness_StepKeepsSynthesizer :
    SynthesizerOk (State.reset.withFetchWord 32 0x50000027) ∧ ∃ t, run State.reset 0x50000027 = .next t :=
  ⟨by unfold SynthesizerOk; decide +kernel, (goesTo_next (p := fun _ => true) (by decide +kernel)).imp fun _ h => h.1⟩

theorem witness_StepKeepsRegisters :
    RegistersOk (State.reset.withFetchWord 32 0x150C0080) ∧ ∃ t, run State.reset 0x150C0080 = .next t :=
  ⟨by unfold RegistersOk; decide +kernel, (goesTo_next (p := fun _ => true) (by decide +kernel)).imp fun _ h => h.1⟩

/-- The step that attaches a block, and one of an attached block. -/
theorem witness_StepKeepsSession :
    (SessionOk ((State.detached tc1).withFetchWord 32 0xA0000000) ∧ LoopsIdle (State.detached tc1) ∧
      ∃ t, run (State.detached tc1) 0xA0000000 = .next t) ∧
    (SessionOk (State.reset.withFetchWord 32 0x60000000) ∧ LoopsIdle State.reset ∧
      ∃ t, run State.reset 0x60000000 = .next t) :=
  ⟨⟨fun h => (by obtain ⟨k, hk⟩ := h; cases hk), ⟨rfl, rfl⟩,
      (goesTo_next (p := fun _ => true) (by decide +kernel)).imp fun _ h => h.1⟩,
    reset_session, reset_idle, (goesTo_next (p := fun _ => true) (by decide +kernel)).imp fun _ h => h.1⟩

/-- A stimulus that cannot dispatch; one that can, on a block whose lines are external but one, which has no handler. -/
theorem witness_EachElementHasItsWriters :
    (¬ Dispatches State.reset.cfg (.expWrMode .b2 0xABCD#16) ∧
      ∃ t, exec (.expWrMode .b2 0xABCD#16) State.reset = .next t) ∧
    (let s := setLine (State.reset.withSig (Vector.replicate 64 ⟨false, false, some .ext⟩)) 63 ⟨false, false, none⟩;
      (lineAt s 63).handler = none ∧ (∀ l, (lineAt s l).handler ≠ some (.cs 2)) ∧
      (∀ l, (lineAt s l).handler ≠ some (.strobe 10)) ∧ (∀ l, isStrobe (lineAt s l).handler = false) ∧
      ∃ t, exec (.sigSet 63 true) s = .next t) :=
  ⟨⟨by simp [Dispatches], (goesTo_next (p := fun _ => true) (by decide +kernel)).imp fun _ h => h.1⟩,
    by decide +kernel, by decide +kernel, by decide +kernel, by decide +kernel,
    (goesTo_next (p := fun _ => true) (by decide +kernel)).imp fun _ h => h.1⟩

theorem witness_OnlyIoClearAndAttachChangeEcc :
    (∃ t, exec .tick State.reset = .next t) ∧ ∃ t, exec (.nandWrEccclr .b1 0xFF#16) State.reset = .next t :=
  ⟨(goesTo_next (p := fun _ => true) (by decide +kernel)).imp fun _ h => h.1,
    (goesTo_next (p := fun _ => true) (by decide +kernel)).imp fun _ h => h.1⟩

/-- Each of the three faults is raised somewhere; the overflow on the least full queue it can meet. -/
theorem witness_FaultsComeFromTheirStimuli :
    exec .attach (State.detached { tc1 with tickHz := 0 }) = .fault (.configError .tickRate) ∧
    exec (.keyDown 0x27#7) ((queueState (List.replicate 13 0x9E#8)).withMods ⟨0x3#4, 0x00#6⟩) =
      .fault (.queueOverflow 0x23#8) ∧
    exec .hsyncNotify reentrant = .fault (.reentry .keyMatrix reentrant.trace) :=
  ⟨faultsWith_fault (by decide +kernel), faultsWith_fault (by decide +kernel), faultsWith_fault (by decide +kernel)⟩

theorem witness_NoReentryUnderQuietWiring : LoopsIdle State.reset ∧ SenseQuiet State.reset := ⟨reset_idle, reset_quiet⟩

theorem witness_OnlySigRegEndsQuietWiring :
    (∃ t, exec .attach (State.detached tc1) = .next t) ∧ SenseQuiet State.reset ∧
      (∀ (r : Fin 7) (c : Fin 11), Instr.sigReg 35 (.cs 0) ≠ .sigReg (senseLine r) (.strobe c)) ∧
      ∃ t, exec (.sigReg 35 (.cs 0)) State.reset = .next t :=
  ⟨(goesTo_next (p := fun _ => true) (by decide +kernel)).imp fun _ h => h.1, reset_quiet, by simp,
    (goesTo_next (p := fun _ => true) (by decide +kernel)).imp fun _ h => h.1⟩

end Sys2Proof.Tests
end

