-- ==== Sys2Proof/Proofs/Scope.lean ====
section
/-! What a step makes of its stimulus, and which part of the decoder depends on the register map: the class and the fields
of a word settle whether it is refused, the map only says which register an accepted access names. -/

namespace Sys2Proof

/-! ## The decoder's errors do not depend on the register map -/

theorem decodeRead_eq_error_iff {m : RegisterMap} {w : Word} {why : Invalid} :
    decodeRead m w = .error why ↔
      decodeBus w = .error why ∨ (∃ b, decodeBus w = .ok b) ∧ lowOf w ≠ 0#16 ∧ why = .readWithData := by
  cases hb : decodeBus w with
  | error e => simp [decodeRead, hb]
  | ok b =>
    by_cases hl : lowOf w = 0#16
    · simp [decodeRead, hb, hl]
    · simp [decodeRead, hb, hl, eq_comm]

theorem decodeWrite_eq_error_iff {m : RegisterMap} {w : Word} {why : Invalid} :
    decodeWrite m w = .error why ↔ decodeBus w = .error why := by
  cases hb : decodeBus w with
  | error e => simp [decodeWrite, hb]
  | ok b => simp [decodeWrite, hb]

theorem decodeWith_of_class_read {m : RegisterMap} {w : Word} (h : classOf w = 0x0#4) :
    decodeWith m w = decodeRead m w := by simp [decodeWith, h]

theorem decodeWith_of_class_write {m : RegisterMap} {w : Word} (h : classOf w = 0x1#4) :
    decodeWith m w = decodeWrite m w := by simp [decodeWith, h]

/-- Only the two bus classes look at the register map. -/
theorem decodeWith_eq_of_class_not_bus {w : Word} (hr : classOf w ≠ 0x0#4) (hw : classOf w ≠ 0x1#4)
    (m m' : RegisterMap) : decodeWith m w = decodeWith m' w := by
  unfold decodeWith
  split
  · exact absurd ‹_› hr
  · exact absurd ‹_› hw
  all_goals rfl

theorem decodeWith_eq_error_iff_decode (m : RegisterMap) (w : Word) (why : Invalid) :
    decodeWith m w = .error why ↔ decode w = .error why := by
  unfold decode
  by_cases hr : classOf w = 0x0#4
  · rw [decodeWith_of_class_read hr, decodeWith_of_class_read hr, decodeRead_eq_error_iff, decodeRead_eq_error_iff]
  by_cases hw : classOf w = 0x1#4
  · rw [decodeWith_of_class_write hw, decodeWith_of_class_write hw, decodeWrite_eq_error_iff, decodeWrite_eq_error_iff]
  · rw [decodeWith_eq_of_class_not_bus hr hw m standardMap]

namespace Machine

/-! ## The step, by its next stimulus -/

theorem fetch_word_of_ok {c : Config} {w : Word} {i : Instr} (h : decodeWith c.regs w = .ok i) :
    fetch c (.word w) = .ok i := by simp [fetch, h]

theorem fetch_word_of_error {c : Config} {w : Word} {why : Invalid} (h : decodeWith c.regs w = .error why) :
    fetch c (.word w) = .error (.invalidWord why) := by simp [fetch, h]

variable {s : State} {x : Stimulus} {rest : List Stimulus}

theorem step_of_input_nil (h : s.input = []) : step s = .next s := by simp [step, h]

theorem step_of_fetch_ok {i : Instr} (h : s.input = x :: rest) (hf : fetch s.cfg x = .ok i) :
    step s = exec i (s.withInput rest) := by simp [step, h, hf]

theorem step_of_fetch_error {e : Refusal} (h : s.input = x :: rest) (hf : fetch s.cfg x = .error e) :
    step s = .refused e := by simp [step, h, hf]

theorem withFetchWord_toNat_input (s : State) (w : Word) :
    (s.withFetchWord 32 w.toNat).input = .word w :: s.input := by
  rw [State.withFetchWord, Nat.mod_eq_of_lt w.isLt, BitVec.ofNat_toNat, BitVec.setWidth_eq, State.withInput_input]

@[simp] theorem withFetchWord_cfg (s : State) (nbits w : Nat) : (s.withFetchWord nbits w).cfg = s.cfg := rfl

@[simp] theorem withFetchWord_withInput (s : State) (nbits w : Nat) (xs : List Stimulus) :
    (s.withFetchWord nbits w).withInput xs = s.withInput xs := rfl

/-- A word that an agent issues runs on the state it was issued to: the step takes it off the input again. -/
theorem step_withFetchWord_of_decode {s : State} {w : Word} {i : Instr} (hm : s.cfg.regs = standardMap)
    (hd : decode w = .ok i) : step (s.withFetchWord 32 w.toNat) = exec i s := by
  have hf : fetch (s.withFetchWord 32 w.toNat).cfg (.word w) = .ok i :=
    fetch_word_of_ok (by rw [withFetchWord_cfg, hm]; exact hd)
  rw [step_of_fetch_ok (withFetchWord_toNat_input s w) hf, withFetchWord_withInput, State.withInput_self]

/-- Settles O1: the step by its input and what the decoder answers; that the map does not change an error, by the class of
the word. -/
theorem stepRunsTheDecodedStimulus : Obligations.StepRunsTheDecodedStimulus := by
  refine ⟨fun _ => step_of_input_nil, fun s w rest hin => ⟨fun i hd => ?_, fun why hd => ?_⟩,
    fun _ _ _ => step_withFetchWord_of_decode, decodeWith_eq_error_iff_decode⟩
  · exact step_of_fetch_ok hin (fetch_word_of_ok hd)
  · exact step_of_fetch_error hin (fetch_word_of_error hd)

end Machine

end Sys2Proof
end

/-! What one stimulus can do, said once for all 51 of them: the elements it writes itself (`DirectWrite`), and what the
handlers it then dispatches may touch (`Dispatched`). The invariants of 10_state and its table of writers are read off
these two. -/

namespace Sys2Proof.Machine

/-! ## What a dispatch changes, and through which binding -/

/-- `DispatchFrame`, and what moves only through a bound handler: the dispatched level of a line that has one, a select
flag through `H_CS`, a strobe bit through `H_STROBE`. -/
structure Dispatched (s t : State) : Prop extends DispatchFrame s t where
  disp : ∀ l, (lineAt s l).handler = none → (lineAt t l).disp = (lineAt s l).disp
  sel : ∀ k : Fin 3, (∀ l, (lineAt s l).handler ≠ some (.cs k)) → t.sel.get k = s.sel.get k
  strobe : ∀ c : Fin 11, (∀ l, (lineAt s l).handler ≠ some (.strobe c)) →
    t.km.strobe.getLsbD c.val = s.km.strobe.getLsbD c.val

/-- The strobe handler is bound to no line. -/
def NoStrobeBound (s : State) : Prop := ∀ l, isStrobe (lineAt s l).handler = false

/-- The sense bits follow the matrix: nothing of it moved, or they were recomputed from it (10_state R25). -/
def SenseFollows (s t : State) : Prop := t.km = s.km ∨ t.km.sense = senseNow t

theorem NoStrobeBound.of_frame {s t : State} (h : NoStrobeBound s) (f : DispatchFrame s t) : NoStrobeBound t :=
  fun l => by rw [f.handlers]; exact h l

theorem SenseFollows.trans {s t u : State} (h : SenseFollows s t) (k : SenseFollows t u) : SenseFollows s u := by
  rcases k with hkm | hnow
  · rcases h with hkm' | hnow'
    · exact .inl (hkm.trans hkm')
    · exact .inr (by rw [hkm, hnow']; exact (senseNow_congr (by rw [hkm]) (by rw [hkm])).symm)
  · exact .inr hnow

namespace Dispatched

theorem refl (s : State) : Dispatched s s := ⟨.refl s, fun _ _ => rfl, fun _ _ => rfl, fun _ _ => rfl⟩

theorem trans {s t u : State} (h : Dispatched s t) (k : Dispatched t u) : Dispatched s u where
  toDispatchFrame := h.toDispatchFrame.trans k.toDispatchFrame
  disp l hl := (k.disp l (by rw [h.handlers]; exact hl)).trans (h.disp l hl)
  sel i hi := (k.sel i fun l => by rw [h.handlers]; exact hi l).trans (h.sel i hi)
  strobe c hc := (k.strobe c fun l => by rw [h.handlers]; exact hc l).trans (h.strobe c hc)

/-- A store of a level, which leaves the dispatched levels. -/
theorem store (s : State) (l : Line) (v : Bool) : Dispatched s (setLine s l { lineAt s l with level := v }) where
  toDispatchFrame := setLine_frame s l v (lineAt s l).disp
  disp m _ := by
    by_cases h : m = l
    · subst h; simp
    · rw [lineAt_setLine_ne _ _ h]
  sel _ _ := rfl
  strobe _ _ := rfl

/-- The edge of a line that has a handler, consumed. -/
theorem consume {s : State} {l : Line} {hd : Handler} (hl : (lineAt s l).handler = some hd) (v : Bool) :
    Dispatched s (setLine s l { lineAt s l with level := v, disp := v }) where
  toDispatchFrame := setLine_frame s l v v
  disp m hm := by
    have hne : m ≠ l := fun e => by rw [e, hl] at hm; cases hm
    rw [lineAt_setLine_ne _ _ hne]
  sel _ _ := rfl
  strobe _ _ := rfl

theorem emit (s : State) (e : Event) : Dispatched s (emit s e) :=
  ⟨emit_frame s e, fun _ _ => rfl, fun _ _ => rfl, fun _ _ => rfl⟩

/-- A call of `H_CS(i)` on a line it is bound to. -/
theorem select {s : State} {l : Line} {i : Fin 3} (hl : (lineAt s l).handler = some (.cs i)) (v : Bool) :
    Dispatched s (hCs i v s) where
  toDispatchFrame := hCs_frame s i v
  disp _ _ := rfl
  sel k hk := by
    have hne : i.val ≠ k.val := fun e => hk l (by rw [hl, Fin.ext e])
    simp [hCs, Vector.get_eq_getElem, Vector.getElem_set_ne, hne]
  strobe _ _ := rfl

end Dispatched

/-- `SigSet` dispatches as its strobe handler does, called only through a line it is bound to. -/
theorem sigSetWith_dispatched {onStrobe : Fin 11 → Bool → State → Result} {l : Line} {v : Bool} {s t : State}
    (hk : ∀ c a b, (lineAt a l).handler = some (.strobe c) → onStrobe c v a = .next b → Dispatched a b)
    (h : sigSetWith onStrobe l v s = .next t) : Dispatched s t := by
  rcases sigSetWith_cases h with ⟨-, rfl⟩ | ⟨hd, hl, -, hcall⟩
  · exact .store s l v
  · have hedge := Dispatched.consume hl v
    have hl' := (hedge.handlers l).trans hl
    cases hd with
    | strobe c => exact hedge.trans (hk c _ _ hl' hcall)
    | cs i => cases hcall; exact hedge.trans (.select hl' v)
    | ext => cases hcall; exact hedge.trans (.emit _ _)

theorem senseRow_dispatched {r : Fin 7} {s t : State} (h : senseRow r s = .next t) : Dispatched s t := by
  unfold senseRow at h
  split at h
  · cases h; exact .refl s
  · exact sigSetWith_dispatched (fun c a b _ e => by simp [hStrobeReentry] at e) h

theorem kmRecompute_dispatched {s t : State} (h : kmRecompute s = .next t) : Dispatched s t := by
  obtain ⟨-, hframe, hkm⟩ := kmRecompute_spec h
  unfold kmRecompute at h
  split at h
  · cases h
  · obtain ⟨m, hm, ht⟩ := andThen_eq_next.1 h
    have hloop : Dispatched (s.withRunning { s.running with km := true }) m :=
      forEach_keeps (Dispatched _) (fun _ _ _ ha hb => ha.trans (senseRow_dispatched hb)) (.refl _) hm
    cases ht
    exact ⟨hframe, hloop.disp, hloop.sel, fun _ _ => by rw [hkm]⟩

/-- A call of `H_STROBE(c)` on a line it is bound to. -/
theorem hStrobe_dispatched {l : Line} {c : Fin 11} {v : Bool} {s t : State}
    (hl : (lineAt s l).handler = some (.strobe c)) (h : hStrobe c v s = .next t) : Dispatched s t := by
  obtain ⟨-, hframe, hstrobe, -⟩ := hStrobe_spec h
  unfold hStrobe at h
  split at h
  · cases h
  · have hkm := kmRecompute_dispatched h
    refine ⟨hframe, hkm.disp, hkm.sel, fun d hd => ?_⟩
    have hne : d.val ≠ c.val := fun e => hd l (by rw [hl, Fin.ext e])
    rw [hstrobe, putBit_getLsbD _ _ _ d.isLt, if_neg hne]

theorem sigSet_dispatched {l : Line} {v : Bool} {s t : State} (h : sigSet l v s = .next t) : Dispatched s t :=
  sigSetWith_dispatched (fun _ _ _ => hStrobe_dispatched) h

theorem sigSet_km_of_noStrobeBound {l : Line} {v : Bool} {s t : State} (hs : NoStrobeBound s)
    (h : sigSet l v s = .next t) : t.km = s.km := by
  obtain ⟨u, hu, -, hkm⟩ := sigSetWith_completes v (hs l)
  have : u = t := Host.Outcome.next.inj ((hu hStrobe).symm.trans h)
  rw [← this, hkm]

theorem expoutLane_dispatched {diff new : Word} {b : Fin 32} {s t : State} (h : expoutLane diff new b s = .next t) :
    Dispatched s t ∧ (NoStrobeBound s → t.km = s.km) := by
  unfold expoutLane at h
  split at h
  · exact ⟨sigSet_dispatched h, fun hs => sigSet_km_of_noStrobeBound hs h⟩
  · cases h; exact ⟨.refl s, fun _ => rfl⟩

/-- The expander recomputation is the store of the previous visible level, and dispatches (43_gpio_expander R165). -/
theorem expRecompute_dispatched {s t : State} (h : expRecompute s = .next t) :
    Dispatched (s.withExp { s.exp with gpioPrev := visibleLevel s.exp.gpioOut s.exp.gpioDir }) t ∧
      (NoStrobeBound s → t.km = s.km) := by
  obtain ⟨-, hframe, -⟩ := expRecompute_spec h
  unfold expRecompute at h
  split at h
  · cases h
  · obtain ⟨m, hm, ht⟩ := andThen_eq_next.1 h
    have hloop : Dispatched (s.withRunning { s.running with exp := true }) m ∧ (NoStrobeBound s → m.km = s.km) := by
      refine forEach_keeps (fun u => Dispatched (s.withRunning { s.running with exp := true }) u ∧
        (NoStrobeBound s → u.km = s.km)) (fun b x y ⟨hd, hkm⟩ hxy => ?_) ⟨.refl _, fun _ => rfl⟩ hm
      obtain ⟨hd', hkm'⟩ := expoutLane_dispatched hxy
      refine ⟨hd.trans hd', fun hs => (hkm' ?_).trans (hkm hs)⟩
      exact NoStrobeBound.of_frame (s := s.withRunning { s.running with exp := true }) hs hd.toDispatchFrame
    obtain ⟨hd, hkm⟩ := hloop
    cases ht
    exact ⟨⟨hframe, hd.disp, hd.sel, hd.strobe⟩, hkm⟩

/-- Applying an event is a store in the pressed grid, and dispatches (45_key_matrix R193 to R196). -/
theorem keyApply_dispatched {code : Byte} {s t : State} (h : keyApply code s = .next t) :
    Dispatched (s.withKm { s.km with pressed := t.km.pressed }) t := by
  obtain ⟨hframe, -, -⟩ := keyApply_frame h
  have hframe' : DispatchFrame (s.withKm { s.km with pressed := t.km.pressed }) t := { hframe with }
  unfold keyApply at h
  split at h
  · cases h; exact .refl _
  · split at h
    · unfold keyCell at h
      split at h
      · cases h
      · have hd := kmRecompute_dispatched h
        exact ⟨hframe', hd.disp, hd.sel, hd.strobe⟩
    · split at h
      · have hd := sigSet_dispatched h
        exact ⟨hframe', hd.disp, hd.sel, hd.strobe⟩
      · cases h

/-! ## The synthesizer -/

/-- What every part of a `KEY` stimulus keeps (46_key_synth R210): the head of the queue, its capacity, and the unused
injected bit. -/
structure SynthStep (s t : State) : Prop where
  head : t.queue.head = s.queue.head
  capacity : s.queue.len.toNat ≤ 16 → t.queue.len.toNat ≤ 16
  unused : s.mods.inj.getLsbD 1 = false → t.mods.inj.getLsbD 1 = false

theorem SynthStep.refl (s : State) : SynthStep s s := ⟨rfl, id, id⟩

theorem SynthStep.trans {s t u : State} (h : SynthStep s t) (k : SynthStep t u) : SynthStep s u :=
  ⟨k.head.trans h.head, k.capacity ∘ h.capacity, k.unused ∘ h.unused⟩

/-- `Enqueue` on a full queue is a fault (46_key_synth R218), so the length stays within the capacity. -/
theorem enqueue_synthStep {code : Byte} {s t : State} (h : enqueue code s = .next t) : SynthStep s t := by
  obtain ⟨hlen, rfl⟩ := enqueue_eq_next h
  refine ⟨rfl, fun hle => ?_, id⟩
  simp only [State.withQueue_queue]
  bv_omega

/-- No injection of 46_key_synth R214 marks the unused bit. -/
theorem injectIf_synthStep {wanted : State → Bool} {code : Byte} {k : Nat} {s t : State} (hk : k ≠ 1)
    (h : injectIf wanted code k s = .next t) : SynthStep s t := by
  unfold injectIf at h
  split at h
  · obtain ⟨m, hm, ht⟩ := andThen_eq_next.1 h
    obtain ⟨hhead, hcap, hunused⟩ := enqueue_synthStep hm
    cases ht
    refine ⟨hhead, hcap, fun hs => ?_⟩
    rw [State.withMods_mods, putBit_getLsbD _ _ _ (by decide), if_neg hk.symm, hunused hs]
  · cases h; exact .refl s

theorem inject_synthStep {e : BitVec 10} {s t : State} (h : inject e s = .next t) : SynthStep s t := by
  unfold inject at h
  obtain ⟨s1, hshift, h⟩ := andThen_eq_next.1 h
  obtain ⟨s2, hctrl, h⟩ := andThen_eq_next.1 h
  obtain ⟨s3, hfn, h⟩ := andThen_eq_next.1 h
  obtain ⟨s4, hlrel, hrrel⟩ := andThen_eq_next.1 h
  exact (injectIf_synthStep (by decide) hshift).trans <| (injectIf_synthStep (by decide) hctrl).trans <|
    (injectIf_synthStep (by decide) hfn).trans <| (injectIf_synthStep (by decide) hlrel).trans <|
    injectIf_synthStep (by decide) hrrel

theorem releaseIf_synthStep {b : Bool} {code : Byte} {s t : State} (h : releaseIf b code s = .next t) :
    SynthStep s t := by
  unfold releaseIf at h
  split at h
  · exact enqueue_synthStep h
  · cases h; exact .refl s

theorem release_synthStep {s t : State} (h : release s = .next t) : SynthStep s t := by
  unfold release at h
  obtain ⟨s1, hshift, h⟩ := andThen_eq_next.1 h
  obtain ⟨s2, hctrl, h⟩ := andThen_eq_next.1 h
  obtain ⟨s3, hfn, h⟩ := andThen_eq_next.1 h
  obtain ⟨s4, hlrel, h⟩ := andThen_eq_next.1 h
  obtain ⟨s5, hrrel, ht⟩ := andThen_eq_next.1 h
  have hreleased : SynthStep s s5 := (releaseIf_synthStep hshift).trans <| (releaseIf_synthStep hctrl).trans <|
    (releaseIf_synthStep hfn).trans <| (releaseIf_synthStep hlrel).trans <| releaseIf_synthStep hrrel
  cases ht
  exact hreleased.trans ⟨rfl, id, fun _ => by simp⟩

/-- The middle step of 46_key_synth R210 (live modifiers, releases or injections), then the primary event. -/
theorem keyEvent_synthStep {kc : BitVec 7} {up : Bool} {s t : State} (h : keyEvent kc up s = .next t) :
    SynthStep s t := by
  unfold keyEvent at h
  obtain ⟨m, hm, hprimary⟩ := andThen_eq_next.1 h
  refine SynthStep.trans ?_ (enqueue_synthStep hprimary)
  split at hm
  · cases hm; exact ⟨rfl, id, id⟩
  · split at hm
    · exact release_synthStep hm
    · split at hm
      · cases hm; exact .refl s
      · exact inject_synthStep hm

/-! ## What a stimulus writes itself -/

/-- The state a stimulus other than `ATTACH` makes of `s` before any handler is called (10_state section 10, column
"written by"); `observe` is the share of every stimulus: the trace and the environment's answers. -/
inductive DirectWrite (s : State) : Instr → State → Prop
  | observe (i : Instr) (env : Env) (tr : List Event) : DirectWrite s i ((s.withEnv env).withTrace tr)
  | nandRdIo (sz : Size) (e : Ecc) (env : Env) (tr : List Event) :
    DirectWrite s (.nandRdIo sz) (((s.withEcc e).withEnv env).withTrace tr)
  | nandWrIo (sz : Size) (d : Half) (e : Ecc) (tr : List Event) :
    DirectWrite s (.nandWrIo sz d) ((s.withEcc e).withTrace tr)
  | nandWrEccclr (sz : Size) (d : Half) : DirectWrite s (.nandWrEccclr sz d) (s.withEcc eccZero)
  | nandWrCtl (sz : Size) (d : Half) (tr : List Event) :
    DirectWrite s (.nandWrCtl sz d) ((s.withNandCtl (ctlStoreValue s.cfg.ctlBits d)).withTrace tr)
  | expWrMode (sz : Size) (d : Half) : DirectWrite s (.expWrMode sz d) (s.withExp { s.exp with mode := d })
  | expWrCmddata (sz : Size) (d : Half) : DirectWrite s (.expWrCmddata sz d) (s.withExp { s.exp with cmddata := d })
  | expWrPower (sz : Size) (d : Half) :
    DirectWrite s (.expWrPower sz d) (s.withExp { s.exp with power := powerStoreValue d })
  | expWrClock (sz : Size) (d : Half) : DirectWrite s (.expWrClock sz d) (s.withExp { s.exp with clock := d })
  | expWrIrctl (sz : Size) (d : Half) : DirectWrite s (.expWrIrctl sz d) (s.withExp { s.exp with irctl := d })
  | expWrImask (sz : Size) (d : Half) : DirectWrite s (.expWrImask sz d) (s.withExp { s.exp with imask := d })
  | expWrIstat (sz : Size) (d : Half) : DirectWrite s (.expWrIstat sz d) (s.withExp { s.exp with istat := d })
  | expWrGpdir (sz : Size) (d : Half) :
    DirectWrite s (.expWrGpdir sz d) (s.withExp { s.exp with
      gpioDir := d.setWidth 32, gpioPrev := visibleLevel s.exp.gpioOut (d.setWidth 32) })
  | expWrGpout (sz : Size) (d : Half) :
    DirectWrite s (.expWrGpout sz d) (s.withExp { s.exp with
      gpioOut := d.setWidth 32, gpioPrev := visibleLevel (d.setWidth 32) s.exp.gpioDir })
  | sigReg (l : Line) (hd : Handler) : DirectWrite s (.sigReg l hd) (sigRegister l hd s)
  | keyDown (kc : BitVec 7) (q : Queue) (m : Modifiers) (h : SynthStep s ((s.withQueue q).withMods m)) :
    DirectWrite s (.keyDown kc) ((s.withQueue q).withMods m)
  | keyUp (kc : BitVec 7) (q : Queue) (m : Modifiers) (h : SynthStep s ((s.withQueue q).withMods m)) :
    DirectWrite s (.keyUp kc) ((s.withQueue q).withMods m)
  | tick (q : Queue) (p : Vector (BitVec 11) 8) (special : p.get 7 = s.km.pressed.get 7)
    (dequeued : q = s.queue ∨ s.queue.len ≠ 0#5 ∧
      q = { s.queue with head := s.queue.head + 1#4, len := s.queue.len - 1#5 }) :
    DirectWrite s .tick ((s.withQueue q).withKm { s.km with pressed := p })
  | hsyncNotify (v : Bool) : DirectWrite s .hsyncNotify (s.withHsync v)
  | expRdStatus (sz : Size) (v : Bool) (h : s.cfg.hsyncOnExpStatusRead = true) :
    DirectWrite s (.expRdStatus sz) (s.withHsync v)
  | teardown (tr : List Event) : DirectWrite s .teardown ((s.withTrace tr).withLife .tornDown)

theorem DirectWrite.nothing (s : State) (i : Instr) : DirectWrite s i s := .observe i s.env s.trace

/-! ## What a whole stimulus does -/

/-- A stimulus other than `ATTACH` that takes `s` to `t`: it makes `u` of `s` itself, and the handlers it dispatches make
`t` of `u`. -/
structure Effect (i : Instr) (s u t : State) : Prop where
  written : DirectWrite s i u
  dispatched : Dispatched u t
  quiet : ¬ Dispatches s.cfg i → t = u
  sense : SenseFollows s t
  unstrobed : i ≠ .tick → NoStrobeBound s → t.km = s.km

/-- A stimulus that dispatches nothing. -/
theorem Effect.of_write {i : Instr} {s t : State} (w : DirectWrite s i t) (hkm : t.km = s.km) : Effect i s t t :=
  ⟨w, .refl t, fun _ => rfl, .inl hkm, fun _ _ => hkm⟩

theorem Effect.of_observe (i : Instr) (s : State) (env : Env) (tr : List Event) :
    Effect i s ((s.withEnv env).withTrace tr) ((s.withEnv env).withTrace tr) := .of_write (.observe i env tr) rfl

/-- A stimulus that writes and then sets one line. -/
theorem Effect.of_sigSet {i : Instr} {s u t : State} {l : Line} {v : Bool} (w : DirectWrite s i u)
    (hd : Dispatches s.cfg i) (hsig : u.sig = s.sig) (hkm : u.km = s.km) (h : sigSet l v u = .next t) :
    Effect i s u t where
  written := w
  dispatched := sigSet_dispatched h
  quiet hq := absurd hd hq
  sense := SenseFollows.trans (.inl hkm) (sigSet_km h)
  unstrobed _ hs := by
    have hu : NoStrobeBound u := fun m => by unfold lineAt; rw [hsig]; exact hs m
    exact (sigSet_km_of_noStrobeBound hu h).trans hkm

/-- A stimulus that writes a GPIO register `x` and then recomputes. -/
theorem Effect.of_expRecompute {i : Instr} {s t : State} {x : Expander}
    (w : DirectWrite s i (s.withExp { x with gpioPrev := visibleLevel x.gpioOut x.gpioDir }))
    (hd : Dispatches s.cfg i) (h : expRecompute (s.withExp x) = .next t) :
    Effect i s (s.withExp { x with gpioPrev := visibleLevel x.gpioOut x.gpioDir }) t where
  written := w
  dispatched := (expRecompute_dispatched h).1
  quiet hq := absurd hd hq
  sense := (expRecompute_spec h).2.2
  unstrobed _ hs := (expRecompute_dispatched h).2 hs

theorem Effect.then_emit {i : Instr} {s u t : State} (h : Effect i s u t) (hd : Dispatches s.cfg i) (e : Event) :
    Effect i s u (emit t e) where
  written := h.written
  dispatched := h.dispatched.trans (.emit t e)
  quiet hq := absurd hd hq
  sense := h.sense.imp id id
  unstrobed := h.unstrobed

/-- The write to every selected chip leaves a trace and nothing else (44_serial_demux R182). -/
theorem chipWrites_trace {is : List (Fin 3)} {byte : Byte} {s t : State}
    (h : forEach is (fun i t => .next (emit t (.chipWrite i byte))) s = .next t) : ∃ tr, t = s.withTrace tr := by
  refine forEach_keeps (fun u => ∃ tr, u = s.withTrace tr) (fun i a b ha hb => ?_) ⟨s.trace, rfl⟩ h
  obtain ⟨tr, rfl⟩ := ha
  cases hb
  exact ⟨_, rfl⟩

/-- The serial read takes answers, leaves a trace, and nothing else (44_serial_demux R183). -/
theorem serialRead_observes (is : List (Fin 3)) (s : State) (r : Ret) :
    ∃ env tr, emit (mergeReads (chipReads is s).1 (chipReads is s).2).2 (.ret r) = (s.withEnv env).withTrace tr := by
  obtain ⟨env, -, hreads⟩ := chipReads_spec is s
  obtain ⟨n, hmerge⟩ := mergeReads_spec (chipReads is s).1 (chipReads is s).2
  rw [hmerge, hreads]
  exact ⟨_, _, rfl⟩

theorem tickOnce_effect {s t : State} (h : tickOnce s = .next t) : ∃ u, Effect .tick s u t := by
  obtain ⟨hframe, hspecial, hsense, hqueue⟩ := tickOnce_frame h
  refine ⟨(s.withQueue t.queue).withKm { s.km with pressed := t.km.pressed }, .tick _ _ hspecial hqueue, ?_,
    fun hq => absurd ?_ hq, hsense, fun hne => absurd rfl hne⟩
  · have hframe' : DispatchFrame ((s.withQueue t.queue).withKm { s.km with pressed := t.km.pressed }) t :=
      { hframe with }
    unfold tickOnce at h
    split at h
    · cases h; exact .refl _
    · have hd := keyApply_dispatched h
      exact ⟨hframe', hd.disp, hd.sel, hd.strobe⟩
  · exact .inr (.inr (.inl rfl))

/-- The inversion of `exec`: what every stimulus but `ATTACH` does if it completes. -/
theorem exec_effect {i : Instr} {s t : State} (hi : i ≠ .attach) (h : exec i s = .next t) : ∃ u, Effect i s u t := by
  by_cases htd : i = .teardown
  · subst htd
    change execTeardown s = .next t at h
    unfold execTeardown at h
    split at h
    · cases h; exact ⟨_, .of_write (.teardown _) rfl⟩
    · cases h
    · cases h
  cases i
  case attach => exact absurd rfl hi
  case teardown => exact absurd rfl htd
  all_goals replace h := (whenAttached_eq_next.1 h).2
  case nandRdIo sz =>
    obtain ⟨env, hget⟩ := flashGetIO_spec s
    simp only [eccDigest] at h
    rw [hget] at h
    cases h
    exact ⟨_, .of_write (.nandRdIo sz _ env _) rfl⟩
  case nandRdCtl sz =>
    obtain ⟨env, hget⟩ := flashGetPins_spec s
    simp only at h
    rw [hget] at h
    cases h
    exact ⟨_, .of_observe _ s env _⟩
  case expRdStatus sz =>
    obtain ⟨m, hm, ht⟩ := andThen_eq_next.1 h
    cases ht
    split at hm
    · rename_i hcfg
      have hd : Dispatches s.cfg (.expRdStatus sz) := .inr (.inr (.inr (.inr ⟨⟨sz, rfl⟩, hcfg⟩)))
      exact ⟨_, (Effect.of_sigSet (.expRdStatus sz (!s.hsync) hcfg) hd rfl rfl hm).then_emit hd _⟩
    · cases hm; exact ⟨_, .of_observe _ s s.env _⟩
  case nandWrIo sz d => cases h; exact ⟨_, .of_write (.nandWrIo sz d _ _) rfl⟩
  case nandWrEccclr sz d => cases h; exact ⟨_, .of_write (.nandWrEccclr sz d) rfl⟩
  case nandWrCtl sz d => cases h; exact ⟨_, .of_write (.nandWrCtl sz d _) rfl⟩
  case expWrMode sz d => cases h; exact ⟨_, .of_write (.expWrMode sz d) rfl⟩
  case expWrCmddata sz d => cases h; exact ⟨_, .of_write (.expWrCmddata sz d) rfl⟩
  case expWrPower sz d => cases h; exact ⟨_, .of_write (.expWrPower sz d) rfl⟩
  case expWrClock sz d => cases h; exact ⟨_, .of_write (.expWrClock sz d) rfl⟩
  case expWrIrctl sz d => cases h; exact ⟨_, .of_write (.expWrIrctl sz d) rfl⟩
  case expWrImask sz d => cases h; exact ⟨_, .of_write (.expWrImask sz d) rfl⟩
  case expWrIstat sz d => cases h; exact ⟨_, .of_write (.expWrIstat sz d) rfl⟩
  case expWrGpdir sz d => exact ⟨_, .of_expRecompute (.expWrGpdir sz d) (.inr (.inl ⟨sz, d, .inl rfl⟩)) h⟩
  case expWrGpout sz d => exact ⟨_, .of_expRecompute (.expWrGpout sz d) (.inr (.inl ⟨sz, d, .inr rfl⟩)) h⟩
  case sigSet l v => exact ⟨_, .of_sigSet (.nothing s _) (.inl ⟨l, v, rfl⟩) rfl rfl h⟩
  case sigReg l hd => cases h; exact ⟨_, .of_write (.sigReg l hd) rfl⟩
  case keyDown kc =>
    obtain ⟨q, m, rfl⟩ := keyEvent_frame h
    exact ⟨_, .of_write (.keyDown kc q m (keyEvent_synthStep h)) rfl⟩
  case keyUp kc =>
    obtain ⟨q, m, rfl⟩ := keyEvent_frame h
    exact ⟨_, .of_write (.keyUp kc q m (keyEvent_synthStep h)) rfl⟩
  case tick => exact tickOnce_effect h
  case sspRd =>
    cases h
    obtain ⟨env, tr, ht⟩ := serialRead_observes (selectedChips s) s
      (.byte (mergeReads (chipReads (selectedChips s) s).1 (chipReads (selectedChips s) s).2).1)
    rw [ht]
    exact ⟨_, .of_observe _ s env tr⟩
  case sspWr b =>
    obtain ⟨tr, rfl⟩ := chipWrites_trace h
    exact ⟨_, .of_observe _ s s.env tr⟩
  case hsyncNotify =>
    exact ⟨_, .of_sigSet (.hsyncNotify (!s.hsync)) (.inr (.inr (.inr (.inl rfl)))) rfl rfl h⟩
  all_goals
    cases h
    exact ⟨_, .of_observe _ s s.env _⟩

/-- The step takes a stimulus off the input and runs it, so a property of the block that `exec` keeps, `step` keeps. -/
theorem step_keeps {P : State → Prop} (hinput : ∀ s rest, P s → P (s.withInput rest))
    (hexec : ∀ i s t, P s → exec i s = .next t → P t) {s t : State} (hs : P s) (h : step s = .next t) : P t := by
  unfold step at h
  split at h
  · cases h; exact hs
  · split at h
    · exact hexec _ _ _ (hinput s _ hs) h
    · cases h

/-! ## The table of writers (10_state section 10) -/

theorem lineAt_sigRegister (l m : Line) (hd : Handler) (s : State) :
    (lineAt (sigRegister l hd s) m).level = (lineAt s m).level ∧
      (lineAt (sigRegister l hd s) m).disp = (lineAt s m).disp := by
  unfold sigRegister
  by_cases h : m = l
  · subst h; simp
  · simp [lineAt_setLine_ne _ _ h]

@[simp] theorem sigRegister_exp (l : Line) (hd : Handler) (s : State) : (sigRegister l hd s).exp = s.exp := rfl

namespace DirectWrite

variable {i : Instr} {s u : State}

theorem session (w : DirectWrite s i u) :
    u.cfg = s.cfg ∧ u.input = s.input ∧ u.running = s.running := by
  cases w <;> exact ⟨rfl, rfl, rfl⟩

/-- What moves through a dispatch, no stimulus writes itself. -/
theorem lines (w : DirectWrite s i u) :
    (∀ l, (lineAt u l).level = (lineAt s l).level ∧ (lineAt u l).disp = (lineAt s l).disp) ∧ u.sel = s.sel ∧
      u.km.strobe = s.km.strobe ∧ u.km.sense = s.km.sense := by
  cases w with
  | sigReg l hd => exact ⟨fun m => lineAt_sigRegister l m hd s, rfl, rfl, rfl⟩
  | _ => exact ⟨fun _ => ⟨rfl, rfl⟩, rfl, rfl, rfl⟩

theorem sig (w : DirectWrite s i u) (h : ∀ l hd, i ≠ .sigReg l hd) : u.sig = s.sig := by
  cases w with
  | sigReg l hd => exact absurd rfl (h l hd)
  | _ => rfl

theorem nandCtl (w : DirectWrite s i u) (h : ∀ sz d, i ≠ .nandWrCtl sz d) : u.nandCtl = s.nandCtl := by
  cases w with
  | nandWrCtl sz d => exact absurd rfl (h sz d)
  | _ => rfl

theorem ecc (w : DirectWrite s i u) (hr : ∀ sz, i ≠ .nandRdIo sz) (hw : ∀ sz d, i ≠ .nandWrIo sz d)
    (hc : ∀ sz d, i ≠ .nandWrEccclr sz d) : u.ecc = s.ecc := by
  cases w with
  | nandRdIo sz => exact absurd rfl (hr sz)
  | nandWrIo sz d => exact absurd rfl (hw sz d)
  | nandWrEccclr sz d => exact absurd rfl (hc sz d)
  | _ => rfl

/-- The stored registers of the expander, each under its own write only. -/
theorem storage (w : DirectWrite s i u) :
    ((∀ sz d, i ≠ .expWrMode sz d) → u.exp.mode = s.exp.mode) ∧
    ((∀ sz d, i ≠ .expWrCmddata sz d) → u.exp.cmddata = s.exp.cmddata) ∧
    ((∀ sz d, i ≠ .expWrPower sz d) → u.exp.power = s.exp.power) ∧
    ((∀ sz d, i ≠ .expWrClock sz d) → u.exp.clock = s.exp.clock) ∧
    ((∀ sz d, i ≠ .expWrIrctl sz d) → u.exp.irctl = s.exp.irctl) ∧
    ((∀ sz d, i ≠ .expWrImask sz d) → u.exp.imask = s.exp.imask) ∧
    ((∀ sz d, i ≠ .expWrIstat sz d) → u.exp.istat = s.exp.istat) := by
  cases w <;> simp

/-- The constants and the GPIO bank of the expander. -/
theorem gpio (w : DirectWrite s i u) :
    u.exp.status = s.exp.status ∧ u.exp.irr = s.exp.irr ∧
    ((∀ sz d, i ≠ .expWrGpdir sz d) → u.exp.gpioDir = s.exp.gpioDir) ∧
    ((∀ sz d, i ≠ .expWrGpout sz d) → u.exp.gpioOut = s.exp.gpioOut) ∧
    ((∀ sz d, i ≠ .expWrGpdir sz d ∧ i ≠ .expWrGpout sz d) → u.exp.gpioPrev = s.exp.gpioPrev) := by
  cases w <;> simp

theorem hsync (w : DirectWrite s i u) (hn : i ≠ .hsyncNotify)
    (hr : (∀ sz, i ≠ .expRdStatus sz) ∨ s.cfg.hsyncOnExpStatusRead = false) : u.hsync = s.hsync := by
  cases w with
  | hsyncNotify => exact absurd rfl hn
  | expRdStatus sz v hcfg =>
    rcases hr with hr | hr
    · exact absurd rfl (hr sz)
    · rw [hr] at hcfg; cases hcfg
  | _ => rfl

theorem pressed (w : DirectWrite s i u) (h : i ≠ .tick) : u.km.pressed = s.km.pressed := by
  cases w with
  | tick => exact absurd rfl h
  | _ => rfl

/-- A dequeue leaves the buffer (46_key_synth R220), and nothing but `KEY` writes it. -/
theorem synth (w : DirectWrite s i u) (h : ∀ kc, i ≠ .keyDown kc ∧ i ≠ .keyUp kc) :
    u.mods = s.mods ∧ u.queue.buf = s.queue.buf ∧ (i ≠ .tick → u.queue.len = s.queue.len) := by
  cases w with
  | keyDown kc => exact absurd rfl (h kc).1
  | keyUp kc => exact absurd rfl (h kc).2
  | tick q p _ dequeued =>
    refine ⟨rfl, ?_, fun ht => absurd rfl ht⟩
    rcases dequeued with rfl | ⟨-, rfl⟩ <;> rfl
  | _ => exact ⟨rfl, rfl, fun _ => rfl⟩

theorem head (w : DirectWrite s i u) (h : i ≠ .tick) : u.queue.head = s.queue.head := by
  cases w with
  | keyDown kc q m hstep => exact hstep.head
  | keyUp kc q m hstep => exact hstep.head
  | tick => exact absurd rfl h
  | _ => rfl

theorem life (w : DirectWrite s i u) (h : i ≠ .teardown) : u.life = s.life := by
  cases w with
  | teardown => exact absurd rfl h
  | _ => rfl

end DirectWrite

theorem not_dispatches_sigReg (c : Config) (l : Line) (hd : Handler) : ¬ Dispatches c (.sigReg l hd) := by
  simp [Dispatches]

namespace Effect

variable {i : Instr} {s u t : State}

/-- A stimulus that dispatches binds nothing itself, so its handlers are those of the state it met. -/
theorem lineAt_written_of_dispatches (e : Effect i s u t) (hd : Dispatches s.cfg i) (l : Line) :
    lineAt u l = lineAt s l := by
  have hsig : u.sig = s.sig := e.written.sig fun m h hi => not_dispatches_sigReg s.cfg m h (hi ▸ hd)
  unfold lineAt
  rw [hsig]

/-- Without a dispatch no element that handlers move is changed. -/
theorem unmoved (e : Effect i s u t) (hd : ¬ Dispatches s.cfg i) :
    (∀ l, (lineAt t l).level = (lineAt s l).level ∧ (lineAt t l).disp = (lineAt s l).disp) ∧ t.sel = s.sel ∧
      t.km.strobe = s.km.strobe ∧ t.km.sense = s.km.sense := by
  rw [e.quiet hd]; exact e.written.lines

/-- A line without handler keeps its dispatched level, a select flag and a strobe bit move only through a bound line. -/
theorem bound (e : Effect i s u t) :
    (∀ l, (lineAt s l).handler = none → (lineAt t l).disp = (lineAt s l).disp) ∧
    (∀ k : Fin 3, (∀ l, (lineAt s l).handler ≠ some (.cs k)) → t.sel.get k = s.sel.get k) ∧
    (∀ c : Fin 11, (∀ l, (lineAt s l).handler ≠ some (.strobe c)) →
      t.km.strobe.getLsbD c.val = s.km.strobe.getLsbD c.val) := by
  by_cases hd : Dispatches s.cfg i
  · have hu := e.lineAt_written_of_dispatches hd
    obtain ⟨hlines, hsel, hstrobe, -⟩ := e.written.lines
    refine ⟨fun l hl => ?_, fun k hk => ?_, fun c hc => ?_⟩
    · exact (e.dispatched.disp l (by rw [hu]; exact hl)).trans (hlines l).2
    · rw [e.dispatched.sel k fun l => by rw [hu]; exact hk l, hsel]
    · rw [e.dispatched.strobe c fun l => by rw [hu]; exact hc l, hstrobe]
  · obtain ⟨hlines, hsel, hstrobe, -⟩ := e.unmoved hd
    exact ⟨fun l _ => (hlines l).2, fun _ _ => by rw [hsel], fun _ _ => by rw [hstrobe]⟩

theorem handlers (e : Effect i s u t) (h : ∀ l hd, i ≠ .sigReg l hd) (l : Line) :
    (lineAt t l).handler = (lineAt s l).handler := by
  rw [e.dispatched.handlers, lineAt, e.written.sig h, lineAt]

end Effect

/-- No stimulus changes the configuration or the input, `ATTACH` included. -/
theorem exec_cfg_input {i : Instr} {s t : State} (h : exec i s = .next t) : t.cfg = s.cfg ∧ t.input = s.input := by
  by_cases hi : i = .attach
  · subst hi
    obtain ⟨-, -, tick, env, rfl⟩ := execAttach_eq_next h
    exact ⟨rfl, rfl⟩
  · obtain ⟨u, e⟩ := exec_effect hi h
    obtain ⟨hcfg, hinput, -⟩ := e.written.session
    exact ⟨e.dispatched.cfg.trans hcfg, e.dispatched.input.trans hinput⟩

/-- Settles O52: a stimulus writes its own elements, and a dispatch moves only what its frame and the bindings allow. -/
theorem eachElementHasItsWriters : Obligations.EachElementHasItsWriters := by
  intro i s t h
  obtain ⟨hcfg, hinput⟩ := exec_cfg_input h
  refine ⟨hcfg, hinput, fun hi => ?_⟩
  obtain ⟨u, e⟩ := exec_effect hi h
  obtain ⟨hdisp, hsel, hstrobe⟩ := e.bound
  have w := e.written
  have d := e.dispatched
  obtain ⟨hmode, hcmddata, hpower, hclock, hirctl, himask, histat⟩ := d.exp ▸ w.storage
  obtain ⟨hstatus, hirr, hgpdir, hgpout, hgpprev⟩ := d.exp ▸ w.gpio
  refine ⟨e.unmoved, hdisp, hsel, hstrobe, fun ht hs => by rw [e.unstrobed ht hs], e.handlers,
    fun hc => d.nandCtl.trans (w.nandCtl hc), fun hr hw hc => d.ecc.trans (w.ecc hr hw hc), hmode, hcmddata, hpower,
    hclock, hirctl, himask, histat, hstatus, hirr, hgpdir, hgpout, hgpprev,
    fun hn hr => d.hsync.trans (w.hsync hn hr), fun ht => d.pressed.trans (w.pressed ht), fun hk => ?_,
    fun ht => by rw [d.queue, w.head ht], fun ht => d.life.trans (w.life ht)⟩
  rw [d.mods, d.queue]
  exact w.synth hk

/-- Settles O53: the transfers and the clear are the writers of the ECC elements; the clear stores zeroes. -/
theorem onlyIoClearAndAttachChangeEcc : Obligations.OnlyIoClearAndAttachChangeEcc := by
  intro i s t h
  refine ⟨fun hr hw hc hi => ?_, fun sz d hi => ?_⟩
  · obtain ⟨u, e⟩ := exec_effect hi h
    exact e.dispatched.ecc.trans (e.written.ecc hr hw hc)
  · subst hi
    obtain ⟨-, hclear⟩ := whenAttached_eq_next.1 h
    cases hclear
    rfl

/-! ## Phases -/

/-- Settles O11: every stimulus but the two lifecycle ones asks for an attached block, those two look at the phase
themselves; the lifecycle has no other writer. -/
theorem onlyAttachedBlocksTakeStimuli : Obligations.OnlyAttachedBlocksTakeStimuli := by
  intro i s
  refine ⟨fun hl hi => ?_, fun hl => ?_, fun tick hl => ?_, fun t h hi htd => ?_⟩
  · by_cases htd : i = .teardown
    · subst htd; simp [exec, execTeardown, hl]
    · obtain ⟨r, hr⟩ := exec_gated i s hi htd
      simp [hr, whenAttached, hl]
  · by_cases hi : i = .attach
    · subst hi; simp [exec, execAttach, hl]
    by_cases htd : i = .teardown
    · subst htd; simp [exec, execTeardown, hl]
    · obtain ⟨r, hr⟩ := exec_gated i s hi htd
      simp [hr, whenAttached, hl]
  · simp [exec, execAttach, hl]
  · obtain ⟨u, e⟩ := exec_effect hi h
    exact e.dispatched.life.trans (e.written.life htd)

/-! ## What every step keeps -/

/-- A property of the block that `ATTACH` establishes and the effect of every other stimulus keeps, every step keeps. -/
theorem step_keeps_of_effect {P : State → Prop} (hinput : ∀ s rest, P s → P (s.withInput rest))
    (hattach : ∀ s t, P s → execAttach s = .next t → P t) (heffect : ∀ i s u t, P s → Effect i s u t → P t)
    {s t : State} (hs : P s) (h : step s = .next t) : P t := by
  refine step_keeps hinput (fun i a b ha hab => ?_) hs h
  by_cases hi : i = .attach
  · subst hi; exact hattach a b ha hab
  · obtain ⟨u, e⟩ := exec_effect hi hab
    exact heffect i a u b ha e

/-- The upper half of a zero-extended register is 0 (10_state R20). -/
theorem extract_high_setWidth (d : Half) : (d.setWidth 32 : Word).extractLsb' 16 16 = 0#16 := by
  apply BitVec.eq_of_getLsbD_eq
  intro k hk
  simp

/-- The GPIO writes store their register zero-extended and, after the lanes, the visible level they recomputed. -/
theorem DirectWrite.gpioBankOk {i : Instr} {s u : State} (w : DirectWrite s i u) (hs : GpioBankOk s) :
    GpioBankOk u := by
  obtain ⟨hprev, hdir, hout⟩ := hs
  cases w with
  | expWrGpdir sz d => exact ⟨rfl, extract_high_setWidth d, hout⟩
  | expWrGpout sz d => exact ⟨rfl, hdir, extract_high_setWidth d⟩
  | _ => exact ⟨hprev, hdir, hout⟩

/-- Settles O47: no dispatch touches the expander, and only the two GPIO writes change the bank. -/
theorem stepKeepsGpioBank : Obligations.StepKeepsGpioBank := by
  intro s t hs h
  refine step_keeps_of_effect (P := GpioBankOk) (fun _ _ h => h) (fun a b _ h => ?_) (fun i a u b ha e => ?_) hs h
  · obtain ⟨-, -, tick, env, rfl⟩ := execAttach_eq_next h
    exact ⟨by simp, by simp, by simp⟩
  · unfold GpioBankOk
    rw [e.dispatched.exp]
    exact e.written.gpioBankOk ha

theorem DirectWrite.special_row {i : Instr} {s u : State} (w : DirectWrite s i u) :
    u.km.pressed.get 7 = s.km.pressed.get 7 := by
  cases w with
  | tick q p special => exact special
  | _ => rfl

/-- Recomputed sense bits are those of 10_state R25. -/
theorem sense_iff_of_senseNow {t : State} (h : t.km.sense = senseNow t) (r : Fin 7) :
    t.km.sense.getLsbD r.val = true ↔ t.km.pressed.get (r.castLE (by omega)) &&& t.km.strobe ≠ 0#11 := by
  rw [h, senseNow_getLsbD]
  simp [sensed]

/-- Settles O48: the sense bits follow the matrix in every effect, and no write reaches the special row. -/
theorem stepKeepsKeyMatrix : Obligations.StepKeepsKeyMatrix := by
  intro s t hs h
  refine step_keeps_of_effect (P := KeyMatrixOk) (fun _ _ h => h) (fun a b _ h => ?_) (fun i a u b ha e => ?_) hs h
  · obtain ⟨-, -, tick, env, rfl⟩ := execAttach_eq_next h
    exact ⟨fun r => by simp [Vector.get_eq_getElem], by simp [Vector.get_eq_getElem]⟩
  · obtain ⟨hsense, hspecial⟩ := ha
    refine ⟨?_, by rw [e.dispatched.pressed, e.written.special_row, hspecial]⟩
    rcases e.sense with hkm | hnow
    · rw [hkm]; exact hsense
    · exact sense_iff_of_senseNow hnow

/-- `KEY` keeps the capacity by its fault, `TICK` takes from a queue that is not empty. -/
theorem DirectWrite.synthesizerOk {i : Instr} {s u : State} (w : DirectWrite s i u) (hs : SynthesizerOk s) :
    SynthesizerOk u := by
  obtain ⟨hlen, hunused⟩ := hs
  cases w with
  | keyDown kc q m h => exact ⟨h.capacity hlen, h.unused hunused⟩
  | keyUp kc q m h => exact ⟨h.capacity hlen, h.unused hunused⟩
  | tick q p _ dequeued =>
    refine ⟨?_, hunused⟩
    rcases dequeued with rfl | ⟨hne, rfl⟩
    · exact hlen
    · simp only [State.withKm_queue, State.withQueue_queue]
      bv_omega
  | _ => exact ⟨hlen, hunused⟩

/-- Settles O49: no dispatch touches queue or modifiers, and their writers keep the bounds. -/
theorem stepKeepsSynthesizer : Obligations.StepKeepsSynthesizer := by
  intro s t hs h
  refine step_keeps_of_effect (P := SynthesizerOk) (fun _ _ h => h) (fun a b _ h => ?_) (fun i a u b ha e => ?_) hs h
  · obtain ⟨-, -, tick, env, rfl⟩ := execAttach_eq_next h
    exact ⟨by simp, by simp⟩
  · unfold SynthesizerOk
    rw [e.dispatched.queue, e.dispatched.mods]
    exact e.written.synthesizerOk ha

/-- The ready/busy position is masked out of what is stored (42_nand_ecc R119). -/
theorem ctlStoreValue_rb (p : CtlBits) (d : Half) : (ctlStoreValue p d).getLsbD p.rb.val = false := by
  simp [ctlStoreValue, rbMask]

/-- The quirk of 43_gpio_expander R154: bit 7 forces bits 6 and 15. -/
theorem powerStoreValue_quirk (d : Half) (h : (powerStoreValue d).getLsbD 7 = true) :
    (powerStoreValue d).getLsbD 6 = true ∧ (powerStoreValue d).getLsbD 15 = true := by
  unfold powerStoreValue at h ⊢
  split at h
  · rename_i h7
    simp [h7]
  · rename_i h7
    exact absurd h h7

theorem DirectWrite.registersOk {i : Instr} {s u : State} (w : DirectWrite s i u) (hs : RegistersOk s) :
    RegistersOk u := by
  obtain ⟨hrb, hpower⟩ := hs
  cases w with
  | nandWrCtl sz d => exact ⟨ctlStoreValue_rb s.cfg.ctlBits d, hpower⟩
  | expWrPower sz d => exact ⟨hrb, powerStoreValue_quirk d⟩
  | _ => exact ⟨hrb, hpower⟩

/-- Settles O50: both registers have one writer, which masks or forces the bits in question. -/
theorem stepKeepsRegisters : Obligations.StepKeepsRegisters := by
  intro s t hs h
  refine step_keeps_of_effect (P := RegistersOk) (fun _ _ h => h) (fun a b _ h => ?_) (fun i a u b ha e => ?_) hs h
  · obtain ⟨-, -, tick, env, rfl⟩ := execAttach_eq_next h
    exact ⟨by simp, by simp⟩
  · unfold RegistersOk
    rw [e.dispatched.nandCtl, e.dispatched.cfg, e.dispatched.exp]
    exact e.written.registersOk ha

theorem DirectWrite.sessionOk {i : Instr} {s u : State} (w : DirectWrite s i u) (hs : SessionOk s) : SessionOk u := by
  by_cases htd : i = .teardown
  · subst htd
    cases w with
    | observe => exact hs
    | teardown => rintro ⟨tick, h⟩; cases h
  · obtain ⟨hcfg, -, -⟩ := w.session
    obtain ⟨hstatus, hirr, -⟩ := w.gpio
    unfold SessionOk Attached
    rw [w.life htd, hcfg, hstatus, hirr]
    exact hs

/-- Settles O51: `ATTACH` admits only what its checks pass and stores the constants, no other stimulus writes them, and
every recomputation clears the flag it set. -/
theorem stepKeepsSession : Obligations.StepKeepsSession := by
  intro s t hs hl h
  refine step_keeps_of_effect (P := fun a => SessionOk a ∧ LoopsIdle a) (fun _ _ h => h) (fun a b _ h => ?_)
    (fun i a u b ⟨ha, hidle⟩ e => ?_) ⟨hs, hl⟩ h
  · obtain ⟨-, hchecks, tick, env, rfl⟩ := execAttach_eq_next h
    exact ⟨fun _ => ⟨hchecks, rfl, rfl⟩, rfl, rfl⟩
  · obtain ⟨-, -, hrunning⟩ := e.written.session
    unfold SessionOk LoopsIdle Attached
    rw [e.dispatched.life, e.dispatched.cfg, e.dispatched.exp, e.dispatched.running, hrunning]
    exact ⟨e.written.sessionOk ha, hidle⟩

/-! ## Reset -/

theorem lineAt_reset (l : Line) : lineAt State.reset l = ⟨false, false, some (defaultHandler l)⟩ := by
  simp [lineAt, State.reset, tc1, defaultWiring]

theorem defaultHandler_senseLine (r : Fin 7) : defaultHandler (senseLine r) = .ext := by
  rw [defaultHandler, dif_neg (by simp [senseLine]), dif_neg (by simp only [senseLine]; omega)]

theorem defaultHandler_expoutLine (b : Fin 32) : defaultHandler (expoutLine b) = .ext := by
  rw [defaultHandler, dif_neg (by simp only [expoutLine]; omega), dif_neg (by simp only [expoutLine]; omega)]

theorem configProblem_tc1 : configProblem tc1 = none := by decide +kernel

theorem senseQuiet_reset : SenseQuiet State.reset := fun r => by
  rw [lineAt_reset, defaultHandler_senseLine]; rfl

theorem expoutExternal_reset : ExpoutExternal State.reset := fun b => by
  rw [ExternalAt, lineAt_reset, defaultHandler_expoutLine]; simp [State.reset]

theorem senseExternal_reset : SenseExternal State.reset := fun r => by
  rw [ExternalAt, lineAt_reset, defaultHandler_senseLine]; simp [State.reset]

theorem keyMatrixOk_reset : KeyMatrixOk State.reset :=
  ⟨fun r => by simp [State.reset, Vector.get_eq_getElem], rfl⟩

/-- Settles O8: the reset state invariant by invariant; its wiring is the default one, external on the SENSE and EXPOUT
lines. -/
theorem resetMeetsTheInvariants : Obligations.ResetMeetsTheInvariants :=
  ⟨⟨rfl, rfl, rfl⟩, keyMatrixOk_reset, ⟨by decide, rfl⟩, ⟨rfl, by decide⟩, fun _ => ⟨configProblem_tc1, rfl, rfl⟩,
    ⟨rfl, rfl⟩, senseQuiet_reset, expoutExternal_reset, senseExternal_reset⟩

end Sys2Proof.Machine

/-! The Register Dispatch's address decode (20_memory R41): whose range an address lies in, and what the step makes of an
access there. -/

namespace Sys2Proof.Machine

/-! ## The address decode -/

/-- The two register ranges share no address (R41; 70_reset_and_hazards R269 check (a)). -/
def RangesApart (c : Config) : Prop := c.nandBase + span ≤ c.expBase ∨ c.expBase + span ≤ c.nandBase

/-- With ranges apart, an address inside a device's range decodes to that device, at the address minus its base. -/
theorem decodeAddr_baseOf_add {c : Config} (hapart : RangesApart c) (dev : Dev) {off : Byte} (hoff : off.toNat < span) :
    decodeAddr c (baseOf c dev + off.toNat) = some (dev, off) := by
  unfold decodeAddr
  cases dev with
  | nand =>
    have inNand : c.nandBase ≤ c.nandBase + off.toNat ∧ c.nandBase + off.toNat < c.nandBase + span := by omega
    simp [baseOf, inNand]
  | exp =>
    have notInNand : ¬ (c.nandBase ≤ c.expBase + off.toNat ∧ c.expBase + off.toNat < c.nandBase + span) := by
      rcases hapart with h | h <;> omega
    have inExp : c.expBase ≤ c.expBase + off.toNat ∧ c.expBase + off.toNat < c.expBase + span := by omega
    rw [baseOf, if_neg notInNand, if_pos inExp, Nat.add_sub_cancel_left, BitVec.ofNat_toNat, BitVec.setWidth_eq]

/-- An address in neither range belongs to no device of the block. -/
theorem decodeAddr_eq_none {c : Config} {addr : Nat} (hout : ∀ dev, addr < baseOf c dev ∨ baseOf c dev + span ≤ addr) :
    decodeAddr c addr = none := by
  have notInNand : ¬ (c.nandBase ≤ addr ∧ addr < c.nandBase + span) := by
    rcases hout .nand with h | h <;> simp only [baseOf] at h <;> omega
  have notInExp : ¬ (c.expBase ≤ addr ∧ addr < c.expBase + span) := by
    rcases hout .exp with h | h <;> simp only [baseOf] at h <;> omega
  rw [decodeAddr, if_neg notInNand, if_neg notInExp]

/-! ## The instruction of an access at a physical address -/

section
variable {c : Config} {addr : Nat} {dev : Dev} {off : Byte}

theorem fetch_memRead_of_some (n : Size) (h : decodeAddr c addr = some (dev, off)) :
    fetch c (.memRead addr n) = .ok (readInstr c.regs dev n off) := by simp [fetch, h]

theorem fetch_memRead_of_none (n : Size) (h : decodeAddr c addr = none) :
    fetch c (.memRead addr n) = .error (.unclaimedAddress addr) := by simp [fetch, h]

theorem fetch_memWrite_of_some (n : Size) (v : Word) (h : decodeAddr c addr = some (dev, off)) :
    fetch c (.memWrite addr n v) = .ok (writeInstr c.regs dev n off (v.setWidth 16)) := by simp [fetch, h]

theorem fetch_memWrite_of_none (n : Size) (v : Word) (h : decodeAddr c addr = none) :
    fetch c (.memWrite addr n v) = .error (.unclaimedAddress addr) := by simp [fetch, h]

end

/-- Settles O2: the address decode finds the device and the offset, or neither, and the step runs or refuses what was
fetched. -/
theorem stepRoutesBusAccessesByAddress : Obligations.StepRoutesBusAccessesByAddress := by
  intro s rest n hapart
  refine ⟨fun dev off hoff => ?_, fun addr hout => ?_⟩
  · have hdec := decodeAddr_baseOf_add hapart dev hoff
    exact ⟨fun hin => step_of_fetch_ok hin (fetch_memRead_of_some n hdec),
      fun v hin => step_of_fetch_ok hin (fetch_memWrite_of_some n v hdec)⟩
  · have hdec := decodeAddr_eq_none hout
    exact ⟨fun hin => step_of_fetch_error hin (fetch_memRead_of_none n hdec),
      fun v hin => step_of_fetch_error hin (fetch_memWrite_of_none n v hdec)⟩

end Sys2Proof.Machine

/-! The stimulus words (30_encoding R60 to R69, R77): a word as the concatenation of its fields, what each class of the
decoder accepts, and from these the round trips of decoder and encoder and the words refused. The register tables of R66
and R67 are read as lists of offsets and instructions. -/

namespace Sys2Proof.Machine

/-! ## A word and its fields -/

/-- A stretch of a word is a concatenation exactly if its two parts are. -/
theorem extractLsb'_eq_append_iff {n a b : Nat} (w : BitVec n) (s : Nat) (x : BitVec a) (y : BitVec b) :
    w.extractLsb' s (a + b) = x ++ y ↔ w.extractLsb' (s + b) a = x ∧ w.extractLsb' s b = y := by
  rw [← BitVec.extractLsb'_append_extractLsb'_eq_extractLsb' (x := w) (rfl : s + b = s + b)]
  constructor
  · intro h
    have left := congrArg (BitVec.extractLsb' b a) h
    have right := congrArg (BitVec.extractLsb' 0 b) h
    rw [BitVec.extractLsb'_append_eq_left, BitVec.extractLsb'_append_eq_left] at left
    rw [BitVec.extractLsb'_append_eq_right, BitVec.extractLsb'_append_eq_right] at right
    exact ⟨left, right⟩
  · rintro ⟨rfl, rfl⟩
    rfl

theorem eq_append_iff {a b : Nat} (w : BitVec (a + b)) (x : BitVec a) (y : BitVec b) :
    w = x ++ y ↔ w.extractLsb' b a = x ∧ w.extractLsb' 0 b = y := by
  have h := extractLsb'_eq_append_iff w 0 x y
  rwa [BitVec.extractLsb'_eq_self, Nat.zero_add] at h

theorem extractLsb'_one_eq_ofBool_iff {n : Nat} (w : BitVec n) (k : Nat) (v : Bool) :
    w.extractLsb' k 1 = BitVec.ofBool v ↔ w.getLsbD k = v := by
  have hbit : ∀ (x : BitVec 1) (v : Bool), x = BitVec.ofBool v ↔ (x == 1#1) = v := by decide
  rw [BitVec.getLsbD_eq_extractLsb', hbit]

/-- A BUS word by its five fields (R61). -/
theorem eq_busWord_iff {w : Word} {dir : Dir} {dev : Dev} {sz : Size} {off : Byte} {data : Half} :
    w = busWord dir dev sz off data ↔
      classOf w = (match dir with | .read => 0x0#4 | .write => 0x1#4) ∧ blkOf w = devBits dev ∧ szOf w = sizeBits sz ∧
        byte2Of w = off ∧ lowOf w = data := by
  unfold busWord
  rw [eq_append_iff (a := 16) (b := 16), extractLsb'_eq_append_iff (a := 8) (b := 8),
    extractLsb'_eq_append_iff (a := 6) (b := 2), extractLsb'_eq_append_iff (a := 4) (b := 2), and_assoc, and_assoc,
    and_assoc]
  rfl

/-- A SIG word by its three fields (R62). -/
theorem eq_sigWord_iff {w : Word} {cls : BitVec 4} {mid : BitVec 12} {l : Line} :
    w = sigWord cls mid l ↔ classOf w = cls ∧ w.extractLsb' 16 12 = mid ∧ lowOf w = BitVec.ofNat 16 l.val := by
  unfold sigWord
  rw [eq_append_iff (a := 16) (b := 16), extractLsb'_eq_append_iff (a := 4) (b := 12), and_assoc]
  rfl

/-- A word whose low byte is all that may be set below the class (R63, R64), `hd` being its upper 24 bits. -/
theorem eq_byteWord_iff {w : Word} {hd : BitVec 24} {cls : BitVec 4} {b : Byte} (h : hd = cls ++ 0#20) :
    w = hd ++ b ↔ classOf w = cls ∧ w.extractLsb' 8 20 = 0#20 ∧ w.extractLsb' 0 8 = b := by
  rw [eq_append_iff (a := 24) (b := 8), h, extractLsb'_eq_append_iff (a := 4) (b := 20), and_assoc]
  rfl

/-- A KEY word by its fields (R63). -/
theorem eq_keyWord_iff {w : Word} {up : Bool} {kc : BitVec 7} :
    w = keyWord up kc ↔
      classOf w = 0x5#4 ∧ w.extractLsb' 8 20 = 0#20 ∧ w.getLsbD 7 = up ∧ w.extractLsb' 0 7 = kc := by
  rw [← extractLsb'_one_eq_ofBool_iff]
  unfold keyWord
  rw [eq_append_iff (a := 25) (b := 7), extractLsb'_eq_append_iff (a := 24) (b := 1),
    show (0x500000#24) = 0x5#4 ++ 0#20 from rfl, extractLsb'_eq_append_iff (a := 4) (b := 20), and_assoc, and_assoc]
  rfl

/-! ## The codes of the operands -/

theorem devOfBits_eq_some_iff {b : BitVec 2} {dev : Dev} : devOfBits b = some dev ↔ b = devBits dev := by
  revert b
  cases dev <;> decide

theorem sizeOfBits_eq_some_iff {b : BitVec 2} {sz : Size} : sizeOfBits b = some sz ↔ b = sizeBits sz := by
  revert b
  cases sz <;> decide

theorem handlerOfHid_hidOf (hd : Handler) : handlerOfHid (hidOf hd) = some hd := by
  cases hd with
  | strobe c => revert c; decide
  | cs i => revert i; decide
  | ext => decide

theorem hidOf_of_handlerOfHid {b : Byte} {hd : Handler} (h : handlerOfHid b = some hd) : hidOf hd = b := by
  unfold handlerOfHid at h
  split at h
  · cases h
    simp [hidOf]
  split at h
  · cases h
    rename_i hcs
    simp [hidOf, Nat.add_sub_cancel' hcs.1]
  split at h
  · cases h
    simp [hidOf, *]
  · cases h

theorem handlerOfHid_eq_some_iff {b : Byte} {hd : Handler} : handlerOfHid b = some hd ↔ b = hidOf hd :=
  ⟨fun h => (hidOf_of_handlerOfHid h).symm, fun h => h ▸ handlerOfHid_hidOf hd⟩

theorem decodeLine_eq_ok_iff {w : Word} {l : Line} : decodeLine w = .ok l ↔ lowOf w = BitVec.ofNat 16 l.val := by
  have hl : l.val < 2 ^ 16 := by omega
  rw [BitVec.toNat_eq, BitVec.toNat_ofNat, Nat.mod_eq_of_lt hl]
  unfold decodeLine
  split
  · simp [Fin.ext_iff]
  · simp only [reduceCtorEq, false_iff]
    omega

/-! ## What each class accepts, and as what -/

theorem decodeBus_eq_ok_iff {w : Word} {dev : Dev} {sz : Size} {off : Byte} :
    decodeBus w = .ok (dev, sz, off) ↔
      blkOf w = devBits dev ∧ szOf w = sizeBits sz ∧ byte2Of w = off ∧ insideSpan off = true := by
  rw [← devOfBits_eq_some_iff, ← sizeOfBits_eq_some_iff]
  unfold decodeBus
  cases devOfBits (blkOf w) with
  | none => simp
  | some d =>
    cases sizeOfBits (szOf w) with
    | none => simp
    | some z =>
      by_cases hin : insideSpan (byte2Of w) = true
      · simp only [if_pos hin, Except.ok.injEq, Prod.mk.injEq, Option.some.injEq]
        exact ⟨fun ⟨hd, hz, ho⟩ => ⟨hd, hz, ho, ho ▸ hin⟩, fun ⟨hd, hz, ho, _⟩ => ⟨hd, hz, ho⟩⟩
      · simp only [if_neg hin, reduceCtorEq, false_iff]
        rintro ⟨-, -, rfl, h⟩
        exact hin h

theorem decodeRead_eq_ok_iff {m : RegisterMap} {w : Word} {i : Instr} :
    decodeRead m w = .ok i ↔
      ∃ dev sz off, decodeBus w = .ok (dev, sz, off) ∧ lowOf w = 0#16 ∧ readInstr m dev sz off = i := by
  unfold decodeRead
  cases decodeBus w with
  | error e => simp
  | ok b =>
    obtain ⟨dev, sz, off⟩ := b
    by_cases hl : lowOf w = 0#16 <;> simp [hl, and_assoc]

theorem decodeWrite_eq_ok_iff {m : RegisterMap} {w : Word} {i : Instr} :
    decodeWrite m w = .ok i ↔
      ∃ dev sz off, decodeBus w = .ok (dev, sz, off) ∧ writeInstr m dev sz off (lowOf w) = i := by
  unfold decodeWrite
  cases decodeBus w with
  | error e => simp
  | ok b =>
    obtain ⟨dev, sz, off⟩ := b
    simp [and_assoc]

theorem decodeSigSet_eq_ok_iff {w : Word} {i : Instr} :
    decodeSigSet w = .ok i ↔
      ∃ l, decodeLine w = .ok l ∧ w.extractLsb' 17 11 = 0#11 ∧ .sigSet l (w.getLsbD 16) = i := by
  unfold decodeSigSet
  cases decodeLine w with
  | error e => simp
  | ok l => by_cases hs : w.extractLsb' 17 11 = 0#11 <;> simp [hs]

theorem decodeSigGet_eq_ok_iff {w : Word} {i : Instr} :
    decodeSigGet w = .ok i ↔ ∃ l, decodeLine w = .ok l ∧ w.extractLsb' 16 12 = 0#12 ∧ .sigGet l = i := by
  unfold decodeSigGet
  cases decodeLine w with
  | error e => simp
  | ok l => by_cases hs : w.extractLsb' 16 12 = 0#12 <;> simp [hs]

theorem decodeSigReg_eq_ok_iff {w : Word} {i : Instr} :
    decodeSigReg w = .ok i ↔
      ∃ l hd, decodeLine w = .ok l ∧ handlerOfHid (byte2Of w) = some hd ∧ w.extractLsb' 24 4 = 0#4 ∧
        .sigReg l hd = i := by
  unfold decodeSigReg
  cases decodeLine w with
  | error e => simp
  | ok l =>
    cases handlerOfHid (byte2Of w) with
    | none => simp
    | some hd => by_cases hs : w.extractLsb' 24 4 = 0#4 <;> simp [hs]

theorem decodeKey_eq_ok_iff {w : Word} {i : Instr} :
    decodeKey w = .ok i ↔ w.extractLsb' 8 20 = 0#20 ∧
      (if w.getLsbD 7 then .keyUp (w.extractLsb' 0 7) else .keyDown (w.extractLsb' 0 7)) = i := by
  unfold decodeKey
  split <;> simp [*]

theorem decodeSspWr_eq_ok_iff {w : Word} {i : Instr} :
    decodeSspWr w = .ok i ↔ w.extractLsb' 8 20 = 0#20 ∧ .sspWr (w.extractLsb' 0 8) = i := by
  unfold decodeSspWr
  split <;> simp [*]

theorem decodeNone_eq_ok_iff {w : Word} {i j : Instr} :
    decodeNone w i = .ok j ↔ w.extractLsb' 0 28 = 0#28 ∧ i = j := by
  unfold decodeNone
  split <;> simp [*]

/-! ## The register tables (R66 to R68) -/

/-- What stands at `off` in a table of offsets and instructions: the first entry of that offset, else `unknown off`. -/
def tableAt (unknown : Byte → Instr) : List (Byte × Instr) → Byte → Instr
  | [], off => unknown off
  | p :: t, off => if off = p.1 then p.2 else tableAt unknown t off

theorem tableAt_of_not_mem {unknown : Byte → Instr} {t : List (Byte × Instr)} {off : Byte}
    (h : off ∉ t.map Prod.fst) : tableAt unknown t off = unknown off := by
  induction t with
  | nil => rfl
  | cons p t ih =>
    rw [List.map_cons, List.mem_cons, not_or] at h
    rw [tableAt, if_neg h.1, ih h.2]

/-- A property of all entries and of the unknown offsets holds of what stands at any offset. -/
theorem tableAt_property {P : Byte → Instr → Prop} {unknown : Byte → Instr} {t : List (Byte × Instr)} {off : Byte}
    (hentry : ∀ p ∈ t, P p.1 p.2) (hunknown : off ∉ t.map Prod.fst → P off (unknown off)) :
    P off (tableAt unknown t off) := by
  induction t with
  | nil => exact hunknown List.not_mem_nil
  | cons p t ih =>
    obtain ⟨hp, ht⟩ := List.forall_mem_cons.1 hentry
    rw [tableAt]
    split
    · rename_i heq
      rwa [heq]
    · rename_i hne
      exact ih ht fun hmem => hunknown (by simp [hne, hmem])

/-- With distinct offsets every entry is found at its own. -/
theorem map_tableAt_of_nodup {unknown : Byte → Instr} {t : List (Byte × Instr)} (h : (t.map Prod.fst).Nodup) :
    (t.map Prod.fst).map (tableAt unknown t) = t.map Prod.snd := by
  induction t with
  | nil => rfl
  | cons p t ih =>
    obtain ⟨hp, ht⟩ := List.nodup_cons.1 h
    have later : ∀ off ∈ t.map Prod.fst, tableAt unknown (p :: t) off = tableAt unknown t off := by
      intro off hoff
      have hne : off ≠ p.1 := by
        rintro rfl
        exact hp hoff
      rw [tableAt, if_neg hne]
    rw [List.map_cons, List.map_cons, List.map_cons, List.map_congr_left later, ih ht, tableAt, if_pos rfl]

/-- The read of an offset that no register of the device has (R103). -/
def unknownReadInstr (dev : Dev) (sz : Size) (off : Byte) : Instr :=
  match dev with
  | .nand => .nandRdUnknown sz off
  | .exp => .expRdUnknown sz off

/-- The write of an offset that no register of the device has (R104). -/
def unknownWriteInstr (dev : Dev) (sz : Size) (data : Half) (off : Byte) : Instr :=
  match dev with
  | .nand => .nandWrUnknown sz off data
  | .exp => .expWrUnknown sz off data

/-- The read table of a device. -/
def readTable (m : RegisterMap) (dev : Dev) (sz : Size) : List (Byte × Instr) := (offsetsOf m dev).zip (readsOf sz dev)

/-- The write table of a device. -/
def writeTable (m : RegisterMap) (dev : Dev) (sz : Size) (data : Half) : List (Byte × Instr) :=
  (offsetsOf m dev).zip (writesOf sz data dev)

section
variable (m : RegisterMap) (dev : Dev) (sz : Size) (data : Half) (off : Byte)

theorem readInstr_eq_tableAt : readInstr m dev sz off = tableAt (unknownReadInstr dev sz) (readTable m dev sz) off := by
  cases dev <;> rfl

theorem writeInstr_eq_tableAt :
    writeInstr m dev sz off data = tableAt (unknownWriteInstr dev sz data) (writeTable m dev sz data) off := by
  cases dev <;> rfl

@[simp] theorem readTable_map_fst : (readTable m dev sz).map Prod.fst = offsetsOf m dev := by cases dev <;> rfl

@[simp] theorem readTable_map_snd : (readTable m dev sz).map Prod.snd = readsOf sz dev := by cases dev <;> rfl

@[simp] theorem writeTable_map_fst : (writeTable m dev sz data).map Prod.fst = offsetsOf m dev := by cases dev <;> rfl

@[simp] theorem writeTable_map_snd : (writeTable m dev sz data).map Prod.snd = writesOf sz data dev := by
  cases dev <;> rfl

end

section
variable {m : RegisterMap} {dev : Dev} {off : Byte}

theorem readInstr_of_not_mem (sz : Size) (h : off ∉ offsetsOf m dev) :
    readInstr m dev sz off = unknownReadInstr dev sz off := by
  rw [readInstr_eq_tableAt, tableAt_of_not_mem (by rwa [readTable_map_fst])]

theorem writeInstr_of_not_mem (sz : Size) (data : Half) (h : off ∉ offsetsOf m dev) :
    writeInstr m dev sz off data = unknownWriteInstr dev sz data off := by
  rw [writeInstr_eq_tableAt, tableAt_of_not_mem (by rwa [writeTable_map_fst])]

theorem map_readInstr_of_nodup (sz : Size) (h : (offsetsOf m dev).Nodup) :
    (offsetsOf m dev).map (readInstr m dev sz) = readsOf sz dev := by
  rw [funext (readInstr_eq_tableAt m dev sz), ← readTable_map_fst m dev sz,
    map_tableAt_of_nodup (by rwa [readTable_map_fst]), readTable_map_snd]

theorem map_writeInstr_of_nodup (sz : Size) (data : Half) (h : (offsetsOf m dev).Nodup) :
    (offsetsOf m dev).map (fun off => writeInstr m dev sz off data) = writesOf sz data dev := by
  rw [funext (writeInstr_eq_tableAt m dev sz data), ← writeTable_map_fst m dev sz data,
    map_tableAt_of_nodup (by rwa [writeTable_map_fst]), writeTable_map_snd]

end

/-- Settles O57: the decode tables as lists; the standard offsets by evaluation. -/
theorem registersAreFoundAtTheirOffsets : Obligations.RegistersAreFoundAtTheirOffsets := by
  refine ⟨fun m dev sz data h => ⟨map_readInstr_of_nodup sz h, map_writeInstr_of_nodup sz data h⟩,
    fun m dev sz data off h => ?_, by decide, by decide⟩
  rw [readInstr_of_not_mem sz h, writeInstr_of_not_mem sz data h]
  cases dev <;> exact ⟨rfl, rfl⟩

/-! ## The registers at the standard offsets -/

/-- The offsets with a row of their own are those of the standard map (R66, R67). -/
theorem listedOffset_eq_true_iff (dev : Dev) (off : Byte) :
    listedOffset dev off = true ↔ off ∈ offsetsOf standardMap dev := by
  revert off
  cases dev <;> decide

theorem unknownOffset_eq_true_iff {dev : Dev} {off : Byte} :
    unknownOffset dev off = true ↔ insideSpan off = true ∧ off ∉ offsetsOf standardMap dev := by
  rw [← listedOffset_eq_true_iff, unknownOffset, Bool.and_eq_true, Bool.not_eq_true', Bool.not_eq_true]

/-- `i` is a well-formed stimulus and `w` is its word. -/
def Encodes (i : Instr) (w : Word) : Prop := i.wellFormed = true ∧ encode i = w

theorem encodes_readInstr (dev : Dev) (sz : Size) {off : Byte} (hoff : insideSpan off = true) :
    Encodes (readInstr standardMap dev sz off) (busWord .read dev sz off 0#16) := by
  rw [readInstr_eq_tableAt]
  refine tableAt_property (P := fun off i => Encodes i (busWord .read dev sz off 0#16)) ?listed ?unknown
  case listed =>
    intro p hp
    cases dev <;> fin_cases hp <;> exact ⟨rfl, rfl⟩
  case unknown =>
    rw [readTable_map_fst]
    intro hmem
    have hu := unknownOffset_eq_true_iff.2 ⟨hoff, hmem⟩
    cases dev <;> exact ⟨hu, rfl⟩

theorem encodes_writeInstr (dev : Dev) (sz : Size) (data : Half) {off : Byte} (hoff : insideSpan off = true) :
    Encodes (writeInstr standardMap dev sz off data) (busWord .write dev sz off data) := by
  rw [writeInstr_eq_tableAt]
  refine tableAt_property (P := fun off i => Encodes i (busWord .write dev sz off data)) ?listed ?unknown
  case listed =>
    intro p hp
    cases dev <;> fin_cases hp <;> exact ⟨rfl, rfl⟩
  case unknown =>
    rw [writeTable_map_fst]
    intro hmem
    have hu := unknownOffset_eq_true_iff.2 ⟨hoff, hmem⟩
    cases dev <;> exact ⟨hu, rfl⟩

/-! ## Decoding what was encoded -/

theorem decode_readWord (dev : Dev) (sz : Size) {off : Byte} (hoff : insideSpan off = true) :
    decode (busWord .read dev sz off 0#16) = .ok (readInstr standardMap dev sz off) := by
  obtain ⟨hcls, hblk, hsz, hbyte, hlow⟩ := eq_busWord_iff.1 (Eq.refl (busWord .read dev sz off 0#16))
  rw [decode, decodeWith_of_class_read hcls, decodeRead_eq_ok_iff]
  exact ⟨dev, sz, off, decodeBus_eq_ok_iff.2 ⟨hblk, hsz, hbyte, hoff⟩, hlow, rfl⟩

theorem decode_writeWord (dev : Dev) (sz : Size) (data : Half) {off : Byte} (hoff : insideSpan off = true) :
    decode (busWord .write dev sz off data) = .ok (writeInstr standardMap dev sz off data) := by
  obtain ⟨hcls, hblk, hsz, hbyte, hlow⟩ := eq_busWord_iff.1 (Eq.refl (busWord .write dev sz off data))
  rw [decode, decodeWith_of_class_write hcls, decodeWrite_eq_ok_iff]
  exact ⟨dev, sz, off, decodeBus_eq_ok_iff.2 ⟨hblk, hsz, hbyte, hoff⟩, by rw [hlow]⟩

theorem decode_unknownReadWord (dev : Dev) (sz : Size) {off : Byte} (h : unknownOffset dev off = true) :
    decode (busWord .read dev sz off 0#16) = .ok (unknownReadInstr dev sz off) := by
  obtain ⟨hoff, hmem⟩ := unknownOffset_eq_true_iff.1 h
  rw [decode_readWord dev sz hoff, readInstr_of_not_mem sz hmem]

theorem decode_unknownWriteWord (dev : Dev) (sz : Size) (data : Half) {off : Byte} (h : unknownOffset dev off = true) :
    decode (busWord .write dev sz off data) = .ok (unknownWriteInstr dev sz data off) := by
  obtain ⟨hoff, hmem⟩ := unknownOffset_eq_true_iff.1 h
  rw [decode_writeWord dev sz data hoff, writeInstr_of_not_mem sz data hmem]

/-- The twelve bits above the line in a SIG.SET word (R62): eleven zeros and the level. -/
theorem eq_sigSetWord_iff {w : Word} {l : Line} {v : Bool} :
    w = encode (.sigSet l v) ↔
      classOf w = 0x2#4 ∧ w.extractLsb' 17 11 = 0#11 ∧ w.getLsbD 16 = v ∧ lowOf w = BitVec.ofNat 16 l.val := by
  rw [encode, eq_sigWord_iff, extractLsb'_eq_append_iff (a := 11) (b := 1), extractLsb'_one_eq_ofBool_iff, and_assoc]

/-- The twelve bits above the line in a SIG.REG word (R62): four zeros and the handler identifier. -/
theorem eq_sigRegWord_iff {w : Word} {l : Line} {hd : Handler} :
    w = encode (.sigReg l hd) ↔
      classOf w = 0x4#4 ∧ w.extractLsb' 24 4 = 0#4 ∧ byte2Of w = hidOf hd ∧ lowOf w = BitVec.ofNat 16 l.val := by
  rw [encode, eq_sigWord_iff, extractLsb'_eq_append_iff (a := 4) (b := 8), and_assoc]
  rfl

theorem decode_encode_sigSet (l : Line) (v : Bool) : decode (encode (.sigSet l v)) = .ok (.sigSet l v) := by
  obtain ⟨hcls, hzero, hlevel, hline⟩ := eq_sigSetWord_iff.1 (Eq.refl (encode (.sigSet l v)))
  simp only [decode, decodeWith, hcls]
  exact decodeSigSet_eq_ok_iff.2 ⟨l, decodeLine_eq_ok_iff.2 hline, hzero, by rw [hlevel]⟩

theorem decode_encode_sigGet (l : Line) : decode (encode (.sigGet l)) = .ok (.sigGet l) := by
  obtain ⟨hcls, hzero, hline⟩ := eq_sigWord_iff.1 (Eq.refl (encode (.sigGet l)))
  simp only [decode, decodeWith, hcls]
  exact decodeSigGet_eq_ok_iff.2 ⟨l, decodeLine_eq_ok_iff.2 hline, hzero, rfl⟩

theorem decode_encode_sigReg (l : Line) (hd : Handler) : decode (encode (.sigReg l hd)) = .ok (.sigReg l hd) := by
  obtain ⟨hcls, hzero, hhid, hline⟩ := eq_sigRegWord_iff.1 (Eq.refl (encode (.sigReg l hd)))
  simp only [decode, decodeWith, hcls]
  exact decodeSigReg_eq_ok_iff.2
    ⟨l, hd, decodeLine_eq_ok_iff.2 hline, handlerOfHid_eq_some_iff.2 hhid, hzero, rfl⟩

theorem decode_keyWord (up : Bool) (kc : BitVec 7) :
    decode (keyWord up kc) = .ok (if up then .keyUp kc else .keyDown kc) := by
  obtain ⟨hcls, hzero, hup, hkc⟩ := eq_keyWord_iff.1 (Eq.refl (keyWord up kc))
  simp only [decode, decodeWith, hcls]
  exact decodeKey_eq_ok_iff.2 ⟨hzero, by rw [hup, hkc]⟩

theorem decode_encode_sspWr (b : Byte) : decode (encode (.sspWr b)) = .ok (.sspWr b) := by
  obtain ⟨hcls, hzero, hbyte⟩ := (eq_byteWord_iff (cls := 0x8#4) rfl).1 (Eq.refl (encode (.sspWr b)))
  simp only [decode, decodeWith, hcls]
  exact decodeSspWr_eq_ok_iff.2 ⟨hzero, by rw [hbyte]⟩

/-- Settles O4, by the format of the instruction's word: a register access stands at its offset in the tables, every other
class decodes its fields to the operands they were made from. -/
theorem encodeThenDecodeIsIdentity : Obligations.EncodeThenDecodeIsIdentity := by
  unfold Obligations.EncodeThenDecodeIsIdentity
  intro i hwf
  match i with
  | .nandRdEcclpl sz | .nandRdEcclpu sz | .nandRdEcccp sz | .nandRdEcccnt sz | .nandRdEccclr sz | .nandRdIo sz
  | .nandRdCtl sz => exact decode_readWord .nand sz rfl
  | .expRdMode sz | .expRdCmddata sz | .expRdStatus sz | .expRdPower sz | .expRdClock sz | .expRdIrr sz | .expRdImask sz
  | .expRdIstat sz | .expRdGpdir sz | .expRdGpout sz | .expRdGprb sz => exact decode_readWord .exp sz rfl
  | .nandRdUnknown sz off => exact decode_unknownReadWord .nand sz hwf
  | .expRdUnknown sz off => exact decode_unknownReadWord .exp sz hwf
  | .nandWrEcclpl sz data | .nandWrEcclpu sz data | .nandWrEcccp sz data | .nandWrEcccnt sz data
  | .nandWrEccclr sz data | .nandWrIo sz data | .nandWrCtl sz data => exact decode_writeWord .nand sz data rfl
  | .expWrMode sz data | .expWrCmddata sz data | .expWrStatus sz data | .expWrPower sz data | .expWrClock sz data
  | .expWrIrctl sz data | .expWrImask sz data | .expWrIstat sz data | .expWrGpdir sz data | .expWrGpout sz data
  | .expWrGprb sz data => exact decode_writeWord .exp sz data rfl
  | .nandWrUnknown sz off data => exact decode_unknownWriteWord .nand sz data hwf
  | .expWrUnknown sz off data => exact decode_unknownWriteWord .exp sz data hwf
  | .sigSet l v => exact decode_encode_sigSet l v
  | .sigGet l => exact decode_encode_sigGet l
  | .sigReg l hd => exact decode_encode_sigReg l hd
  | .keyDown kc => exact decode_keyWord false kc
  | .keyUp kc => exact decode_keyWord true kc
  | .sspWr b => exact decode_encode_sspWr b
  | .tick | .sspRd | .hsyncNotify | .attach | .teardown => rfl

/-- Settles O3: each word is one evaluation of the decoder. -/
theorem decoderReadsTheSpecsWords : Obligations.DecoderReadsTheSpecsWords := by
  unfold Obligations.DecoderReadsTheSpecsWords
  decide

/-! ## Encoding what was decoded -/

section
variable {w : Word} {i : Instr}

theorem encodes_of_decodeRead (hcls : classOf w = 0x0#4) (h : decodeRead standardMap w = .ok i) : Encodes i w := by
  obtain ⟨dev, sz, off, hbus, hlow, rfl⟩ := decodeRead_eq_ok_iff.1 h
  obtain ⟨hblk, hsz, hbyte, hoff⟩ := decodeBus_eq_ok_iff.1 hbus
  have hw : w = busWord .read dev sz off 0#16 := eq_busWord_iff.2 ⟨hcls, hblk, hsz, hbyte, hlow⟩
  exact hw ▸ encodes_readInstr dev sz hoff

theorem encodes_of_decodeWrite (hcls : classOf w = 0x1#4) (h : decodeWrite standardMap w = .ok i) : Encodes i w := by
  obtain ⟨dev, sz, off, hbus, rfl⟩ := decodeWrite_eq_ok_iff.1 h
  obtain ⟨hblk, hsz, hbyte, hoff⟩ := decodeBus_eq_ok_iff.1 hbus
  have hw : w = busWord .write dev sz off (lowOf w) := eq_busWord_iff.2 ⟨hcls, hblk, hsz, hbyte, rfl⟩
  obtain ⟨hwf, henc⟩ := encodes_writeInstr dev sz (lowOf w) hoff
  exact ⟨hwf, henc.trans hw.symm⟩

theorem encodes_of_decodeSigSet (hcls : classOf w = 0x2#4) (h : decodeSigSet w = .ok i) : Encodes i w := by
  obtain ⟨l, hl, hzero, rfl⟩ := decodeSigSet_eq_ok_iff.1 h
  exact ⟨rfl, (eq_sigSetWord_iff.2 ⟨hcls, hzero, rfl, decodeLine_eq_ok_iff.1 hl⟩).symm⟩

theorem encodes_of_decodeSigGet (hcls : classOf w = 0x3#4) (h : decodeSigGet w = .ok i) : Encodes i w := by
  obtain ⟨l, hl, hzero, rfl⟩ := decodeSigGet_eq_ok_iff.1 h
  exact ⟨rfl, (eq_sigWord_iff.2 ⟨hcls, hzero, decodeLine_eq_ok_iff.1 hl⟩).symm⟩

theorem encodes_of_decodeSigReg (hcls : classOf w = 0x4#4) (h : decodeSigReg w = .ok i) : Encodes i w := by
  obtain ⟨l, hd, hl, hhid, hzero, rfl⟩ := decodeSigReg_eq_ok_iff.1 h
  exact ⟨rfl, (eq_sigRegWord_iff.2
    ⟨hcls, hzero, handlerOfHid_eq_some_iff.1 hhid, decodeLine_eq_ok_iff.1 hl⟩).symm⟩

theorem encodes_of_decodeKey (hcls : classOf w = 0x5#4) (h : decodeKey w = .ok i) : Encodes i w := by
  obtain ⟨hzero, rfl⟩ := decodeKey_eq_ok_iff.1 h
  split
  · rename_i hup
    exact ⟨rfl, (eq_keyWord_iff.2 ⟨hcls, hzero, hup, rfl⟩).symm⟩
  · rename_i hup
    exact ⟨rfl, (eq_keyWord_iff.2 ⟨hcls, hzero, Bool.eq_false_of_not_eq_true hup, rfl⟩).symm⟩

theorem encodes_of_decodeSspWr (hcls : classOf w = 0x8#4) (h : decodeSspWr w = .ok i) : Encodes i w := by
  obtain ⟨hzero, rfl⟩ := decodeSspWr_eq_ok_iff.1 h
  exact ⟨rfl, ((eq_byteWord_iff rfl).2 ⟨hcls, hzero, rfl⟩).symm⟩

/-- A word of format NONE (R64), whose instruction's word is the class alone. -/
theorem encodes_of_decodeNone {cls : BitVec 4} {j : Instr} (hj : Encodes j (cls ++ 0#28)) (hcls : classOf w = cls)
    (h : decodeNone w j = .ok i) : Encodes i w := by
  obtain ⟨hzero, rfl⟩ := decodeNone_eq_ok_iff.1 h
  have hw : w = cls ++ 0#28 := (eq_append_iff (a := 4) (b := 28) w cls 0#28).2 ⟨hcls, hzero⟩
  exact hw ▸ hj

end

/-- Settles O5, by the class of the word. -/
theorem decodeThenEncodeIsIdentity : Obligations.DecodeThenEncodeIsIdentity := by
  unfold Obligations.DecodeThenEncodeIsIdentity
  intro w i h
  show Encodes i w
  unfold decode decodeWith at h
  split at h <;> rename_i hcls
  · exact encodes_of_decodeRead hcls h
  · exact encodes_of_decodeWrite hcls h
  · exact encodes_of_decodeSigSet hcls h
  · exact encodes_of_decodeSigGet hcls h
  · exact encodes_of_decodeSigReg hcls h
  · exact encodes_of_decodeKey hcls h
  · exact encodes_of_decodeNone ⟨rfl, rfl⟩ hcls h
  · exact encodes_of_decodeNone ⟨rfl, rfl⟩ hcls h
  · exact encodes_of_decodeSspWr hcls h
  · exact encodes_of_decodeNone ⟨rfl, rfl⟩ hcls h
  · exact encodes_of_decodeNone ⟨rfl, rfl⟩ hcls h
  · exact encodes_of_decodeNone ⟨rfl, rfl⟩ hcls h
  · cases h

/-! ## The words refused, on the fields as numbers (R77) -/

theorem exists_error_iff {r : Except Invalid Instr} : (∃ why, r = .error why) ↔ ¬ ∃ i, r = .ok i := by
  cases r <;> simp

theorem wordField_eq_toNat (w : Word) (lo n : Nat) : w.toNat / 2 ^ lo % 2 ^ n = (w.extractLsb' lo n).toNat := by
  rw [BitVec.extractLsb'_toNat, Nat.shiftRight_eq_div_pow]

/-- The handler identifiers that are not reserved (R62). -/
def HandlerCode (hid : Nat) : Prop := hid ≤ 0x0A ∨ (0x10 ≤ hid ∧ hid ≤ 0x12) ∨ hid = 0x80

section
variable {w : Word}

theorem extractLsb'_eq_zero_iff_wordField {lo n : Nat} (hi : Nat) (hn : hi + 1 - lo = n) :
    w.extractLsb' lo n = 0#n ↔ wordField w hi lo = 0 := by
  subst hn
  rw [BitVec.toNat_eq, BitVec.toNat_ofNat, Nat.zero_mod, wordField, wordField_eq_toNat]

theorem exists_devBits_iff : (∃ dev, blkOf w = devBits dev) ↔ wordField w 27 26 < 2 := by
  have hcode : ∀ b : BitVec 2, (devOfBits b).isSome = true ↔ b.toNat < 2 := by decide
  have hfield : wordField w 27 26 = (blkOf w).toNat := wordField_eq_toNat w 26 2
  rw [hfield, ← hcode, Option.isSome_iff_exists]
  simp only [devOfBits_eq_some_iff]

theorem exists_sizeBits_iff : (∃ sz, szOf w = sizeBits sz) ↔ wordField w 25 24 ≠ 3 := by
  have hcode : ∀ b : BitVec 2, (sizeOfBits b).isSome = true ↔ b.toNat ≠ 3 := by decide
  have hfield : wordField w 25 24 = (szOf w).toNat := wordField_eq_toNat w 24 2
  rw [hfield, ← hcode, Option.isSome_iff_exists]
  simp only [sizeOfBits_eq_some_iff]

theorem exists_handlerOfHid_iff :
    (∃ hd, handlerOfHid (byte2Of w) = some hd) ↔ HandlerCode (wordField w 23 16) := by
  have hcode : ∀ b : Byte, (handlerOfHid b).isSome = true ↔ HandlerCode b.toNat := by
    unfold HandlerCode
    decide
  have hfield : wordField w 23 16 = (byte2Of w).toNat := wordField_eq_toNat w 16 8
  rw [hfield, ← hcode, Option.isSome_iff_exists]

theorem exists_decodeLine_iff : (∃ l, decodeLine w = .ok l) ↔ wordField w 15 0 < 64 := by
  have hfield : wordField w 15 0 = (lowOf w).toNat := wordField_eq_toNat w 0 16
  rw [hfield]
  unfold decodeLine
  split <;> simp [*]

theorem exists_decodeBus_iff :
    (∃ dev sz off, decodeBus w = .ok (dev, sz, off)) ↔
      wordField w 27 26 < 2 ∧ wordField w 25 24 ≠ 3 ∧ wordField w 23 16 < 0x40 := by
  have hfield : wordField w 23 16 = (byte2Of w).toNat := wordField_eq_toNat w 16 8
  rw [← exists_devBits_iff, ← exists_sizeBits_iff, hfield]
  simp only [decodeBus_eq_ok_iff]
  constructor
  · rintro ⟨dev, sz, off, hblk, hsz, rfl, hoff⟩
    exact ⟨⟨dev, hblk⟩, ⟨sz, hsz⟩, of_decide_eq_true hoff⟩
  · rintro ⟨⟨dev, hblk⟩, ⟨sz, hsz⟩, hoff⟩
    exact ⟨dev, sz, _, hblk, hsz, rfl, decide_eq_true hoff⟩

/-! ### What each class accepts, on the fields as numbers -/

theorem exists_decodeRead_iff (m : RegisterMap) :
    (∃ i, decodeRead m w = .ok i) ↔
      (wordField w 27 26 < 2 ∧ wordField w 25 24 ≠ 3 ∧ wordField w 23 16 < 0x40) ∧ wordField w 15 0 = 0 := by
  rw [← exists_decodeBus_iff, ← extractLsb'_eq_zero_iff_wordField 15 rfl]
  simp only [decodeRead_eq_ok_iff]
  exact ⟨fun ⟨_, dev, sz, off, hbus, hlow, _⟩ => ⟨⟨dev, sz, off, hbus⟩, hlow⟩,
    fun ⟨⟨dev, sz, off, hbus⟩, hlow⟩ => ⟨_, dev, sz, off, hbus, hlow, rfl⟩⟩

theorem exists_decodeWrite_iff (m : RegisterMap) :
    (∃ i, decodeWrite m w = .ok i) ↔
      wordField w 27 26 < 2 ∧ wordField w 25 24 ≠ 3 ∧ wordField w 23 16 < 0x40 := by
  rw [← exists_decodeBus_iff]
  simp only [decodeWrite_eq_ok_iff]
  exact ⟨fun ⟨_, dev, sz, off, hbus, _⟩ => ⟨dev, sz, off, hbus⟩,
    fun ⟨dev, sz, off, hbus⟩ => ⟨_, dev, sz, off, hbus, rfl⟩⟩

theorem exists_decodeSigSet_iff :
    (∃ i, decodeSigSet w = .ok i) ↔ wordField w 15 0 < 64 ∧ wordField w 27 17 = 0 := by
  rw [← exists_decodeLine_iff, ← extractLsb'_eq_zero_iff_wordField 27 rfl]
  simp only [decodeSigSet_eq_ok_iff]
  exact ⟨fun ⟨_, l, hl, hzero, _⟩ => ⟨⟨l, hl⟩, hzero⟩, fun ⟨⟨l, hl⟩, hzero⟩ => ⟨_, l, hl, hzero, rfl⟩⟩

theorem exists_decodeSigGet_iff :
    (∃ i, decodeSigGet w = .ok i) ↔ wordField w 15 0 < 64 ∧ wordField w 27 16 = 0 := by
  rw [← exists_decodeLine_iff, ← extractLsb'_eq_zero_iff_wordField 27 rfl]
  simp only [decodeSigGet_eq_ok_iff]
  exact ⟨fun ⟨_, l, hl, hzero, _⟩ => ⟨⟨l, hl⟩, hzero⟩, fun ⟨⟨l, hl⟩, hzero⟩ => ⟨_, l, hl, hzero, rfl⟩⟩

theorem exists_decodeSigReg_iff :
    (∃ i, decodeSigReg w = .ok i) ↔
      wordField w 15 0 < 64 ∧ (∃ hd, handlerOfHid (byte2Of w) = some hd) ∧ wordField w 27 24 = 0 := by
  rw [← exists_decodeLine_iff, ← extractLsb'_eq_zero_iff_wordField 27 rfl]
  simp only [decodeSigReg_eq_ok_iff]
  exact ⟨fun ⟨_, l, hd, hl, hhid, hzero, _⟩ => ⟨⟨l, hl⟩, ⟨hd, hhid⟩, hzero⟩,
    fun ⟨⟨l, hl⟩, ⟨hd, hhid⟩, hzero⟩ => ⟨_, l, hd, hl, hhid, hzero, rfl⟩⟩

theorem exists_decodeKey_iff : (∃ i, decodeKey w = .ok i) ↔ wordField w 27 8 = 0 := by
  rw [← extractLsb'_eq_zero_iff_wordField 27 rfl]
  simp [decodeKey_eq_ok_iff]

theorem exists_decodeSspWr_iff : (∃ i, decodeSspWr w = .ok i) ↔ wordField w 27 8 = 0 := by
  rw [← extractLsb'_eq_zero_iff_wordField 27 rfl]
  simp [decodeSspWr_eq_ok_iff]

theorem exists_decodeNone_iff (i : Instr) : (∃ j, decodeNone w i = .ok j) ↔ wordField w 27 0 = 0 := by
  rw [← extractLsb'_eq_zero_iff_wordField 27 rfl]
  simp [decodeNone_eq_ok_iff]

theorem wordField_class_of {cls : BitVec 4} (h : classOf w = cls) : wordField w 31 28 = cls.toNat :=
  h ▸ wordField_eq_toNat w 28 4

/-- The five classes of format NONE (R64) refuse exactly a set bit below the class. -/
theorem decodeNone_refuses_iff_invalidWord (i : Instr) {cls : BitVec 4} (hcls : classOf w = cls)
    (hnone : cls ∈ [0x6#4, 0x7#4, 0x9#4, 0xA#4, 0xB#4]) : (¬ ∃ j, decodeNone w i = .ok j) ↔ InvalidWord w := by
  have hfield := wordField_class_of hcls
  have hclause : InvalidWord w ↔ wordField w 27 0 ≠ 0 := by
    simp only [List.mem_cons, List.not_mem_nil, or_false] at hnone
    rcases hnone with rfl | rfl | rfl | rfl | rfl <;> simp [InvalidWord, hfield]
  rw [hclause, exists_decodeNone_iff]

/-- A class that none of the twelve formats has is 0xC to 0xF (R60). -/
theorem wordField_class_reserved (h : classOf w ∉ (List.range 12).map (BitVec.ofNat 4)) : 12 ≤ wordField w 31 28 := by
  have hcode : ∀ c : BitVec 4, c ∉ (List.range 12).map (BitVec.ofNat 4) → 12 ≤ c.toNat := by decide
  exact wordField_class_of rfl ▸ hcode _ h

end

/-- Settles O6, by the class of the word: what `InvalidWord` says of the class is the negation of what the class
accepts. -/
theorem refusedWordsAreTheInvalidOnes : Obligations.RefusedWordsAreTheInvalidOnes := by
  unfold Obligations.RefusedWordsAreTheInvalidOnes
  intro m w
  rw [exists_error_iff]
  unfold decodeWith
  split <;> rename_i hcls
  · have hfield : wordField w 31 28 = 0 := wordField_class_of hcls
    have hclause : InvalidWord w ↔ (2 ≤ wordField w 27 26 ∨ wordField w 25 24 = 3 ∨ 0x40 ≤ wordField w 23 16) ∨
        wordField w 15 0 ≠ 0 := by
      simp [InvalidWord, hfield]
    rw [hclause, exists_decodeRead_iff]
    omega
  · have hfield : wordField w 31 28 = 1 := wordField_class_of hcls
    have hclause : InvalidWord w ↔ 2 ≤ wordField w 27 26 ∨ wordField w 25 24 = 3 ∨ 0x40 ≤ wordField w 23 16 := by
      simp [InvalidWord, hfield]
    rw [hclause, exists_decodeWrite_iff]
    omega
  · have hfield : wordField w 31 28 = 2 := wordField_class_of hcls
    have hclause : InvalidWord w ↔ 64 ≤ wordField w 15 0 ∨ wordField w 27 17 ≠ 0 := by
      simp [InvalidWord, hfield]
    rw [hclause, exists_decodeSigSet_iff]
    omega
  · have hfield : wordField w 31 28 = 3 := wordField_class_of hcls
    have hclause : InvalidWord w ↔ 64 ≤ wordField w 15 0 ∨ wordField w 27 16 ≠ 0 := by
      simp [InvalidWord, hfield]
    rw [hclause, exists_decodeSigGet_iff]
    omega
  · have hfield : wordField w 31 28 = 4 := wordField_class_of hcls
    have hclause : InvalidWord w ↔
        64 ≤ wordField w 15 0 ∨ wordField w 27 24 ≠ 0 ∨ ¬ HandlerCode (wordField w 23 16) := by
      simp [InvalidWord, HandlerCode, hfield]
    rw [hclause, exists_decodeSigReg_iff, exists_handlerOfHid_iff, not_and_or, not_and_or, not_lt,
      or_comm (a := ¬ HandlerCode _)]
  · have hfield : wordField w 31 28 = 5 := wordField_class_of hcls
    have hclause : InvalidWord w ↔ wordField w 27 8 ≠ 0 := by
      simp [InvalidWord, hfield]
    rw [hclause, exists_decodeKey_iff]
  · exact decodeNone_refuses_iff_invalidWord _ hcls (by decide)
  · exact decodeNone_refuses_iff_invalidWord _ hcls (by decide)
  · have hfield : wordField w 31 28 = 8 := wordField_class_of hcls
    have hclause : InvalidWord w ↔ wordField w 27 8 ≠ 0 := by
      simp [InvalidWord, hfield]
    rw [hclause, exists_decodeSspWr_iff]
  · exact decodeNone_refuses_iff_invalidWord _ hcls (by decide)
  · exact decodeNone_refuses_iff_invalidWord _ hcls (by decide)
  · exact decodeNone_refuses_iff_invalidWord _ hcls (by decide)
  · have hreserved : 12 ≤ wordField w 31 28 := wordField_class_reserved (by simp_all [List.range_succ])
    simp [InvalidWord, hreserved]

end Sys2Proof.Machine

/-! The Signal Bus (40_signal_bus): what `SigSet` makes of its line in each of its cases, the line it leaves, and where the
sense recomputation meets a strobe handler (R95, 60_exceptions R245). -/

namespace Sys2Proof.Machine

/-! ## The words of R62, as numbers -/

theorem sigWord_eq_ofNat (cls : BitVec 4) (mid : BitVec 12) (l : Line) :
    sigWord cls mid l = BitVec.ofNat 32 (cls.toNat * 2 ^ 28 + mid.toNat * 2 ^ 16 + l.val) := by
  have hcls := cls.isLt
  have hmid := mid.isLt
  apply BitVec.eq_of_toNat_eq
  rw [sigWord, append_toNat, append_toNat, BitVec.toNat_ofNat, BitVec.toNat_ofNat]
  omega

theorem encode_sigSet_eq_ofNat (l : Line) (v : Bool) :
    encode (.sigSet l v) = BitVec.ofNat 32 (0x20000000 + v.toNat * 2 ^ 16 + l.val) := by
  rw [encode, sigWord_eq_ofNat, append_toNat, BitVec.toNat_ofBool]
  simp

theorem encode_sigGet_eq_ofNat (l : Line) : encode (.sigGet l) = BitVec.ofNat 32 (0x30000000 + l.val) := by
  rw [encode, sigWord_eq_ofNat]
  simp

theorem encode_sigReg_eq_ofNat (l : Line) (hd : Handler) :
    encode (.sigReg l hd) = BitVec.ofNat 32 (0x40000000 + (hidOf hd).toNat * 2 ^ 16 + l.val) := by
  rw [encode, sigWord_eq_ofNat, append_toNat]
  simp

theorem hidOf_toNat_strobe (c : Fin 11) : (hidOf (.strobe c)).toNat = c.val := by
  rw [hidOf, BitVec.toNat_ofNat]; omega

theorem hidOf_toNat_cs (i : Fin 3) : (hidOf (.cs i)).toNat = 0x10 + i.val := by
  rw [hidOf, BitVec.toNat_ofNat]; omega

/-! ## The three stimuli of an attached block -/

theorem exec_sigSet_of_attached {s : State} (h : Attached s) (l : Line) (v : Bool) :
    exec (.sigSet l v) s = sigSet l v s := whenAttached_of h

theorem exec_sigGet_of_attached {s : State} (h : Attached s) (l : Line) :
    exec (.sigGet l) s = .next (emit s (.ret (.level (lineAt s l).level))) := whenAttached_of h

theorem exec_sigReg_of_attached {s : State} (h : Attached s) (l : Line) (hd : Handler) :
    exec (.sigReg l hd) s = .next (setLine s l ⟨(lineAt s l).level, (lineAt s l).disp, some hd⟩) := whenAttached_of h

/-- Settles O36: the words by their fields, the two stimuli by their equations on an attached block. -/
theorem sigGetAndSigReg : Obligations.SigGetAndSigReg := by
  intro l hd s hs
  refine ⟨⟨encode_sigGet_eq_ofNat l, exec_sigGet_of_attached hs l⟩, ?_, exec_sigReg_of_attached hs l hd⟩
  rw [encode_sigReg_eq_ofNat]
  cases hd with
  | strobe c => rw [hidOf_toNat_strobe]
  | cs i => rw [hidOf_toNat_cs]
  | ext => rfl

/-! ## `SigSet` (R92), case by case -/

section

variable {onStrobe : Fin 11 → Bool → State → Result} {l : Line} {v : Bool} {s : State}

theorem sigSetWith_of_no_edge (h : (lineAt s l).handler = none ∨ v = (lineAt s l).disp) :
    sigSetWith onStrobe l v s = .next (setLine s l { lineAt s l with level := v }) := by
  unfold sigSetWith
  split
  · rfl
  · rename_i hd hl
    rw [if_pos (h.resolve_left (by simp [hl]))]

theorem sigSetWith_of_edge {hd : Handler} (hl : (lineAt s l).handler = some hd) (hv : v ≠ (lineAt s l).disp) :
    sigSetWith onStrobe l v s = callHandler onStrobe hd l v (setLine s l ⟨v, v, some hd⟩) := by
  simp only [sigSetWith, hl, if_neg hv]

theorem sigSetWith_ext (hl : (lineAt s l).handler = some .ext) (hv : v ≠ (lineAt s l).disp) :
    sigSetWith onStrobe l v s =
      .next ((setLine s l ⟨v, v, some .ext⟩).withTrace (s.trace ++ [.ext l v])) := sigSetWith_of_edge hl hv

theorem sigSetWith_cs {i : Fin 3} (hl : (lineAt s l).handler = some (.cs i)) (hv : v ≠ (lineAt s l).disp) :
    sigSetWith onStrobe l v s =
      .next ((setLine s l ⟨v, v, some (.cs i)⟩).withSel (s.sel.set i.val (!v))) := sigSetWith_of_edge hl hv

theorem sigSetWith_strobe {c : Fin 11} (hl : (lineAt s l).handler = some (.strobe c)) (hv : v ≠ (lineAt s l).disp) :
    sigSetWith onStrobe l v s = onStrobe c v (setLine s l ⟨v, v, some (.strobe c)⟩) := sigSetWith_of_edge hl hv

end

/-! ## The sense recomputation (45_key_matrix R192), idle and running -/

theorem kmRecompute_of_running {s : State} (h : s.running.km = true) :
    kmRecompute s = .fault (.reentry .keyMatrix s.trace) := if_pos h

theorem kmRecompute_of_idle {s : State} (h : s.running.km = false) :
    kmRecompute s =
      andThen (forEach (List.finRange 7) senseRow (s.withRunning { s.running with km := true })) fun t =>
        .next ((t.withKm { t.km with sense := senseNow t }).withRunning { t.running with km := false }) :=
  if_neg (by simp [h])

theorem hStrobe_of_idle {s : State} (h : s.running.km = false) (c : Fin 11) (v : Bool) :
    hStrobe c v s = kmRecompute (s.withKm { s.km with strobe := putBit s.km.strobe c.val v }) := if_neg (by simp [h])

/-- Settles O33: the cases of `SigSet`; the recorded strobe state is the old one with the column's bit put. -/
theorem sigSetStoresAndDispatches : Obligations.SigSetStoresAndDispatches := by
  intro l v s hs
  rw [exec_sigSet_of_attached hs]
  refine ⟨encode_sigSet_eq_ofNat l v, sigSetWith_of_no_edge, fun hv => ⟨fun hl => sigSetWith_ext hl hv,
    fun i hl => sigSetWith_cs hl hv, fun c hl hidle => ?_⟩⟩
  have hrun := hStrobe_of_idle (s := setLine s l ⟨v, v, some (.strobe c)⟩) hidle c v
  exact ⟨putBit s.km.strobe c.val v, fun k hk => putBit_getLsbD _ _ _ hk, (sigSetWith_strobe hl hv).trans hrun⟩

/-! ## The line that a `SigSet` leaves -/

/-- Inside a running sense recomputation a `SigSet` reaches its own line only. -/
theorem lineAt_sigSetWith_reentry_ne {l m : Line} {v : Bool} {s t : State}
    (h : sigSetWith hStrobeReentry l v s = .next t) (hm : m ≠ l) : lineAt t m = lineAt s m := by
  rcases sigSetWith_cases h with ⟨-, rfl⟩ | ⟨hd, -, -, hcall⟩
  · exact lineAt_setLine_ne s _ hm
  · cases hd with
    | strobe c => cases hcall
    | cs i => cases hcall; exact lineAt_setLine_ne s _ hm
    | ext => cases hcall; exact lineAt_setLine_ne s _ hm

/-- What a row of the loop can do if it completes: nothing, or the `SigSet` of its line. -/
theorem senseRow_cases {q : Fin 7} {s t : State} (h : senseRow q s = .next t) :
    t = s ∨ sigSetWith hStrobeReentry (senseLine q) (rowSense s q) s = .next t := by
  unfold senseRow at h
  split at h
  · cases h; exact .inl rfl
  · exact .inr h

theorem lineAt_senseRow_ne {q : Fin 7} {l : Line} {s t : State} (h : senseRow q s = .next t) (hl : l ≠ senseLine q) :
    lineAt t l = lineAt s l := by
  rcases senseRow_cases h with rfl | hset
  · rfl
  · exact lineAt_sigSetWith_reentry_ne hset hl

/-- A line with a strobe handler and no pending edge stays as it is through a row of the recomputation: a level of its own
SENSE row that is another one would be a re-entry. -/
theorem senseRow_keeps_strobeLine {q : Fin 7} {l : Line} {c : Fin 11} {v : Bool} {s t : State}
    (hl : lineAt s l = ⟨v, v, some (.strobe c)⟩) (h : senseRow q s = .next t) :
    lineAt t l = ⟨v, v, some (.strobe c)⟩ := by
  by_cases hq : l = senseLine q
  · subst hq
    rcases senseRow_cases h with rfl | hset
    · exact hl
    · rcases sigSetWith_cases hset with ⟨hstay, rfl⟩ | ⟨hd, hh, -, hcall⟩
      · rw [hl] at hstay ⊢
        simpa using hstay
      · rw [hl] at hh
        cases hh
        cases hcall
  · rw [lineAt_senseRow_ne h hq, hl]

theorem kmRecompute_keeps_strobeLine {l : Line} {c : Fin 11} {v : Bool} {s t : State}
    (hl : lineAt s l = ⟨v, v, some (.strobe c)⟩) (h : kmRecompute s = .next t) :
    lineAt t l = ⟨v, v, some (.strobe c)⟩ := by
  obtain ⟨hidle, -, -⟩ := kmRecompute_spec h
  rw [kmRecompute_of_idle hidle] at h
  obtain ⟨m, hm, ht⟩ := andThen_eq_next.1 h
  have hloop : lineAt m l = ⟨v, v, some (.strobe c)⟩ :=
    forEach_keeps (fun u => lineAt u l = ⟨v, v, some (.strobe c)⟩) (fun _ _ _ => senseRow_keeps_strobeLine)
      (s := s.withRunning { s.running with km := true }) hl hm
  cases ht
  exact hloop

/-- A completed `SigSet` leaves its line at the level, with no edge pending to a handler. -/
theorem lineAt_of_sigSet {l : Line} {v : Bool} {s t : State} (h : sigSet l v s = .next t) :
    (lineAt t l).level = v ∧ ((lineAt t l).handler = none ∨ v = (lineAt t l).disp) := by
  rcases sigSetWith_cases h with ⟨hstay, rfl⟩ | ⟨hd, hh, hv, -⟩
  · rw [lineAt_setLine_self]
    exact ⟨rfl, hstay⟩
  · have hcall := (sigSetWith_of_edge hh hv).symm.trans h
    cases hd with
    | strobe c =>
      obtain ⟨hidle, -⟩ := hStrobe_spec hcall
      have hline : lineAt t l = ⟨v, v, some (.strobe c)⟩ := by
        refine kmRecompute_keeps_strobeLine ?_ ((hStrobe_of_idle hidle c v).symm.trans hcall)
        exact lineAt_setLine_self s l _
      rw [hline]
      exact ⟨rfl, .inr rfl⟩
    | cs i => cases hcall; rw [lineAt_hCs, lineAt_setLine_self]; exact ⟨rfl, .inr rfl⟩
    | ext => cases hcall; rw [lineAt_emit, lineAt_setLine_self]; exact ⟨rfl, .inr rfl⟩

/-- Settles O34: quiet wiring leaves no re-entry to meet, and a completed `SigSet` has its frame and its level. -/
theorem sigSetCompletesWithFrame : Obligations.SigSetCompletesWithFrame := by
  intro l v s hs hidle hquiet
  obtain ⟨-, hkm⟩ := hidle
  obtain ⟨t, ht⟩ := sigSet_completes l v hkm hquiet
  exact ⟨t, (exec_sigSet_of_attached hs l v).trans ht, (lineAt_of_sigSet ht).1, sigSet_frame ht⟩

/-- Settles O35: the first `SigSet` leaves the level stored and no edge, so the second one stores what stands there. -/
theorem redundantSigSetDispatchesNothing : Obligations.RedundantSigSetDispatchesNothing := by
  intro l v s t h
  obtain ⟨hs, hset⟩ := whenAttached_eq_next.1 h
  have ht : Attached t := by unfold Attached; rw [(sigSet_frame hset).life]; exact hs
  obtain ⟨hlevel, hedge⟩ := lineAt_of_sigSet hset
  calc exec (.sigSet l v) t
      = sigSet l v t := exec_sigSet_of_attached ht l v
    _ = .next (setLine t l { lineAt t l with level := v }) := sigSetWith_of_no_edge hedge
    _ = .next t := by rw [← hlevel, setLine_lineAt]

/-! ## The rows that the sense recomputation visits -/

/-- Row `q` has another sense bit than at the previous recomputation (45_key_matrix R192). -/
def rowChanged (km : KeyMatrix) (q : Fin 7) : Bool := sensed km.pressed km.strobe q != km.sense.getLsbD q.val

/-- The `SigSet` of row `q`. -/
def setSenseRow (km : KeyMatrix) (q : Fin 7) (s : State) : Result :=
  sigSet (senseLine q) (sensed km.pressed km.strobe q) s

/-- The changed rows before row `r`, ascending. -/
def changedBefore (km : KeyMatrix) (r : Fin 7) : List (Fin 7) :=
  (List.finRange 7).filter fun q => decide (q < r) && rowChanged km q

theorem senseRow_of_unchanged {s : State} {q : Fin 7} (h : rowChanged s.km q = false) : senseRow q s = .next s :=
  if_pos (bne_eq_false_iff_eq.1 h)

theorem senseRow_of_changed {s : State} {q : Fin 7} (h : rowChanged s.km q = true) :
    senseRow q s = sigSetWith hStrobeReentry (senseLine q) (sensed s.km.pressed s.km.strobe q) s :=
  if_neg (bne_iff_ne.1 h)

theorem sense_of_rowChanged {km : KeyMatrix} {q : Fin 7} (h : rowChanged km q = true) :
    km.sense.getLsbD q.val = !sensed km.pressed km.strobe q :=
  Bool.eq_not.2 (bne_iff_ne.1 h).symm

theorem senseLine_injective : Function.Injective senseLine := fun q r h => by
  have hval : 11 + q.val = 11 + r.val := congrArg Fin.val h
  exact Fin.ext (by omega)

theorem forEach_append {α : Type} (xs ys : List α) (f : α → State → Result) (s : State) :
    forEach (xs ++ ys) f s = andThen (forEach xs f s) (forEach ys f) := by
  induction xs generalizing s with
  | nil => rfl
  | cons x xs ih =>
    rw [List.cons_append, forEach_cons, forEach_cons]
    cases f x s with
    | next m => exact ih m
    | fault e => rfl
    | refused e => rfl

/-- A row without a strobe handler does in the loop what its `SigSet` does outside, if it changed, and else nothing. -/
theorem senseRow_of_quiet {s : State} {q : Fin 7}
    (h : rowChanged s.km q = true → isStrobe (lineAt s (senseLine q)).handler = false) :
    ∃ t, senseRow q s = .next t ∧ (if rowChanged s.km q then setSenseRow s.km q s else .next s) = .next t := by
  cases hq : rowChanged s.km q with
  | false => exact ⟨s, senseRow_of_unchanged hq, rfl⟩
  | true =>
    obtain ⟨t, ht, -⟩ := sigSetWith_completes (sensed s.km.pressed s.km.strobe q) (h hq)
    exact ⟨t, (senseRow_of_changed hq).trans (ht _), ht hStrobe⟩

theorem forEach_filter_cons {α : Type} (p : α → Bool) (x : α) (xs : List α) (f : α → State → Result) (s : State) :
    forEach ((x :: xs).filter p) f s =
      andThen (if p x then f x s else .next s) (forEach (xs.filter p) f) := by
  cases hx : p x <;> simp [hx]

/-- Rows whose lines call no strobe handler when they changed: the loop makes the `SigSet`s of the changed ones, in its
order, and leaves the matrix as it met it. -/
theorem forEach_senseRow_of_quiet {km : KeyMatrix} {xs : List (Fin 7)} {s : State} (hs : s.km = km)
    (h : ∀ q ∈ xs, rowChanged km q = true → isStrobe (lineAt s (senseLine q)).handler = false) :
    ∃ m, forEach xs senseRow s = .next m ∧ forEach (xs.filter (rowChanged km)) (setSenseRow km) s = .next m ∧
      m.km = km := by
  induction xs generalizing s with
  | nil => exact ⟨s, rfl, rfl, hs⟩
  | cons q xs ih =>
    subst hs
    obtain ⟨u, hrow, hset⟩ := senseRow_of_quiet (h q (by simp))
    obtain ⟨hframe, hkm⟩ := senseRow_frame hrow
    obtain ⟨m, hloop, hsets, hmkm⟩ := ih hkm fun p hp hc => by
      rw [hframe.handlers]; exact h p (by simp [hp]) hc
    refine ⟨m, ?_, ?_, hmkm⟩
    · rw [forEach_cons, hrow, andThen_next, hloop]
    · rw [forEach_filter_cons, hset, andThen_next, hsets]

theorem lineAt_forEach_senseRow_of_ne {l : Line} {xs : List (Fin 7)} {s m : State}
    (h : forEach xs senseRow s = .next m) (hl : ∀ q ∈ xs, l ≠ senseLine q) : lineAt m l = lineAt s l := by
  induction xs generalizing s with
  | nil => cases h; rfl
  | cons q xs ih =>
    obtain ⟨u, hu, hrest⟩ := andThen_eq_next.1 h
    rw [ih hrest fun p hp => hl p (by simp [hp]), lineAt_senseRow_ne hu (hl q (by simp))]

/-! ## Re-entry of the key matrix (R95, 60_exceptions R245, R248) -/

/-- The loop's rows, split at row `r`. -/
theorem finRange_split (r : Fin 7) :
    List.finRange 7 = (List.finRange 7).filter (fun q => decide (q < r)) ++
      r :: (List.finRange 7).filter (fun q => decide (r < q)) := by
  revert r; decide

theorem changedBefore_eq_filter (km : KeyMatrix) (r : Fin 7) :
    changedBefore km r = ((List.finRange 7).filter fun q => decide (q < r)).filter (rowChanged km) := by
  simp only [changedBefore, List.filter_filter, Bool.and_comm]

theorem senseRow_reentry {s : State} {r : Fin 7} {c : Fin 11} (hc : rowChanged s.km r = true)
    (hl : (lineAt s (senseLine r)).handler = some (.strobe c))
    (hv : sensed s.km.pressed s.km.strobe r ≠ (lineAt s (senseLine r)).disp) :
    senseRow r s = .fault (.reentry .keyMatrix s.trace) :=
  (senseRow_of_changed hc).trans (sigSetWith_strobe hl hv)

/-- The changed rows before `r` make their `SigSet`s, and the strobe handler on the line of `r` ends the recomputation with
their trace. -/
theorem kmRecompute_reentry {s : State} {r : Fin 7} {c : Fin 11} (hidle : s.running.km = false)
    (hq : ∀ q ∈ changedBefore s.km r, isStrobe (lineAt s (senseLine q)).handler = false)
    (hc : rowChanged s.km r = true) (hl : (lineAt s (senseLine r)).handler = some (.strobe c))
    (hv : sensed s.km.pressed s.km.strobe r ≠ (lineAt s (senseLine r)).disp) :
    ∃ m, forEach (changedBefore s.km r) (setSenseRow s.km) (s.withRunning { s.running with km := true }) = .next m ∧
      kmRecompute s = .fault (.reentry .keyMatrix m.trace) := by
  obtain ⟨m, hloop, hsets, hkm⟩ := forEach_senseRow_of_quiet (km := s.km)
    (xs := (List.finRange 7).filter fun q => decide (q < r))
    (s := s.withRunning { s.running with km := true }) rfl fun q hmem hch =>
      hq q (by rw [changedBefore_eq_filter]; exact List.mem_filter.2 ⟨hmem, hch⟩)
  have hline : lineAt m (senseLine r) = lineAt s (senseLine r) :=
    lineAt_forEach_senseRow_of_ne (s := s.withRunning { s.running with km := true }) hloop fun q hmem heq => by
      simp [senseLine_injective heq] at hmem
  have hrow : senseRow r m = .fault (.reentry .keyMatrix m.trace) :=
    senseRow_reentry (by rw [hkm]; exact hc) (by rw [hline]; exact hl) (by rw [hkm, hline]; exact hv)
  refine ⟨m, by rw [changedBefore_eq_filter]; exact hsets, ?_⟩
  rw [kmRecompute_of_idle hidle, finRange_split r, forEach_append, hloop, andThen_next, forEach_cons, hrow,
    andThen_fault, andThen_fault]

/-- `SigSet`s of distinct lines with external handlers, each to the level it does not stand at: every one is a call, in
order, and beside the lines nothing else happens. -/
theorem forEach_sigSet_external {α : Type} {line : α → Line} {v : α → Bool} {xs : List α} {s : State}
    (hdistinct : (xs.map line).Nodup) (h : ∀ x ∈ xs, ExternalAt s (line x) (!v x)) :
    ∃ sig, forEach xs (fun x => sigSet (line x) (v x)) s =
      .next ((s.withSig sig).withTrace (s.trace ++ xs.map fun x => .ext (line x) (v x))) := by
  induction xs generalizing s with
  | nil => exact ⟨s.sig, by simp⟩
  | cons x xs ih =>
    obtain ⟨hx, hxs⟩ := List.nodup_cons.1 hdistinct
    have hline : lineAt s (line x) = ⟨!v x, !v x, some .ext⟩ := h x (by simp)
    have hset : sigSet (line x) (v x) s = _ :=
      sigSetWith_ext (s := s) (by rw [hline]) (by rw [hline]; simp)
    obtain ⟨sig, hsig⟩ := ih (s := (setLine s (line x) ⟨v x, v x, some .ext⟩).withTrace (s.trace ++ [.ext (line x) (v x)]))
      hxs fun y hy => by
        have hne : line y ≠ line x := fun e => hx (e ▸ List.mem_map_of_mem hy)
        exact (lineAt_setLine_ne s _ hne).trans (h y (by simp [hy]))
    refine ⟨sig, ?_⟩
    rw [forEach_cons, hset, andThen_next, hsig]
    simp [setLine, State.withSig, State.withTrace]

/-- The changed rows before `r` with external handlers and no edge pending: the loop calls each of them once. -/
theorem trace_of_changedBefore_external {s m : State} {r : Fin 7}
    (hext : ∀ q ∈ changedBefore s.km r, ExternalAt s (senseLine q) (s.km.sense.getLsbD q.val))
    (hm : forEach (changedBefore s.km r) (setSenseRow s.km) (s.withRunning { s.running with km := true }) = .next m) :
    m.trace = s.trace ++
      (changedBefore s.km r).map fun q => .ext (senseLine q) (sensed s.km.pressed s.km.strobe q) := by
  have hdistinct : ((changedBefore s.km r).map senseLine).Nodup :=
    ((List.nodup_finRange 7).filter _).map senseLine_injective
  obtain ⟨sig, hsig⟩ := forEach_sigSet_external (v := sensed s.km.pressed s.km.strobe)
    (s := s.withRunning { s.running with km := true }) hdistinct fun q hq => by
      have hch : rowChanged s.km q = true := by
        rw [changedBefore_eq_filter] at hq; exact (List.mem_filter.1 hq).2
      rw [← sense_of_rowChanged hch]
      exact hext q hq
  cases hm.symm.trans hsig
  rfl

/-- Settles O41: a running recomputation refuses entry; an idle one runs its rows up to the first strobe handler, whose call
is the re-entry, and the calls made before it are those of the external handlers. -/
theorem strobeHandlerOnSenseLineIsReentry : Obligations.StrobeHandlerOnSenseLineIsReentry := by
  intro s r c
  refine ⟨fun t => kmRecompute_of_running, fun hidle hq hne hl hdisp => ?_⟩
  obtain ⟨m, hm, hfault⟩ := kmRecompute_reentry hidle hq (bne_iff_ne.2 hne) hl (Ne.symm hdisp)
  refine ⟨⟨m, hm, hfault⟩, fun hext => ?_⟩
  rw [hfault, trace_of_changedBefore_external hext hm]
  rfl

end Sys2Proof.Machine

/-! The Register Dispatch (41_register_dispatch): what an access that no register recognises does (R103, R104), and that no
stimulus reads the trace it writes (R106, 00_scope R6).

`TraceBlind` is the second claim for one operation. It is proved once for each shared operation, and the stimuli inherit it
through the sequencing; that the trace only grows is a consequence, since a run is the run from an empty trace with the old
events put before it. -/

namespace Sys2Proof.Machine

/-! ## Accesses that no register recognises -/

/-- The first offset past the registers of a device (30_encoding R66, R67). -/
def registersEnd : Dev → Nat
  | .nand => 0x1C
  | .exp => 0x2C

theorem standardOffset_aligned_below_end (dev : Dev) :
    ∀ off ∈ offsetsOf standardMap dev, off.toNat % 4 = 0 ∧ off.toNat < registersEnd dev := by
  cases dev <;> decide

theorem not_mem_standardOffsets {dev : Dev} {off : Byte} (h : off.toNat % 4 ≠ 0 ∨ registersEnd dev ≤ off.toNat) :
    off ∉ offsetsOf standardMap dev := by
  intro hmem
  obtain ⟨haligned, hbelow⟩ := standardOffset_aligned_below_end dev off hmem
  omega

theorem unknownRead_eq (dev : Dev) (sz : Size) (off : Byte) (s : State) :
    unknownRead dev sz off s = .next (s.withTrace (s.trace ++ [.log dev .read off, .ret (.bus sz 0#32)])) := by
  simp [unknownRead, returns, emit]

theorem unknownWrite_eq (dev : Dev) (off : Byte) (s : State) :
    unknownWrite dev off s = .next (s.withTrace (s.trace ++ [.log dev .write off])) := rfl

/-- Settles O22: the standard offsets are multiples of 4 below the end of the registers; on an attached block every access
listed is the unknown-offset read or write. -/
theorem unrecognisedAccessesOnlyLog : Obligations.UnrecognisedAccessesOnlyLog := by
  refine ⟨fun dev sz off data _ h => ?_, fun sz off data s hs => ?_⟩
  · have hmem : off ∉ offsetsOf standardMap dev := not_mem_standardOffsets (by cases dev <;> exact h)
    rw [readInstr_of_not_mem sz hmem, writeInstr_of_not_mem sz data hmem]
    cases dev <;> exact ⟨rfl, rfl⟩
  · have reads (dev : Dev) (o : Byte) := (whenAttached_of hs).trans (unknownRead_eq dev sz o s)
    have writes (dev : Dev) (o : Byte) := (whenAttached_of hs).trans (unknownWrite_eq dev o s)
    exact ⟨reads _ _, reads _ _, reads _ _, writes _ _, writes _ _, writes _ _, writes _ _, writes _ _, writes _ _,
      writes _ _, writes _ _⟩

/-! ## Operations that do not read the trace -/

/-- The state with the events `es` before its trace. -/
def withEarlier (es : List Event) (s : State) : State := s.withTrace (es ++ s.trace)

@[simp] theorem withEarlier_life (es : List Event) (s : State) : (withEarlier es s).life = s.life := rfl
@[simp] theorem withEarlier_cfg (es : List Event) (s : State) : (withEarlier es s).cfg = s.cfg := rfl
@[simp] theorem withEarlier_env (es : List Event) (s : State) : (withEarlier es s).env = s.env := rfl
@[simp] theorem shiftAny_withEarlier (es : List Event) (s : State) : shiftAny (withEarlier es s) = shiftAny s := rfl
@[simp] theorem selectedChips_withEarlier (es : List Event) (s : State) :
    selectedChips (withEarlier es s) = selectedChips s := rfl
@[simp] theorem withEnv_withEarlier (es : List Event) (s : State) (env : Env) :
    (withEarlier es s).withEnv env = withEarlier es (s.withEnv env) := rfl
@[simp] theorem advanceDraws_withEarlier (es : List Event) (s : State) (n : Nat) :
    advanceDraws (withEarlier es s) n = withEarlier es (advanceDraws s n) := rfl
@[simp] theorem createElements_withEarlier (es : List Event) (s : State) :
    createElements (withEarlier es s) = withEarlier es (createElements s) := rfl

@[simp] theorem emit_withEarlier (es : List Event) (s : State) (e : Event) :
    emit (withEarlier es s) e = withEarlier es (emit s e) := by
  simp [emit, withEarlier, State.withTrace]

/-- Events put before the trace change nothing of what `f` does, and stand before the trace it leaves. -/
def TraceBlind (f : State → Result) : Prop := ∀ es s, f (withEarlier es s) = afterEvents es (f s)

/-- `f` answers the same value whatever stands before the trace. -/
def TraceBlindCall {α : Type} (f : State → α × State) : Prop :=
  ∀ es s, f (withEarlier es s) = ((f s).1, withEarlier es (f s).2)

/-! ### Sequencing -/

theorem andThen_afterEvents {es : List Event} {r r' : Result} {k : State → Result} (hr : r' = afterEvents es r)
    (hk : TraceBlind k) : andThen r' k = afterEvents es (andThen r k) := by
  subst hr
  cases r with
  | next s => exact hk es s
  | fault e => rfl
  | refused e => rfl

theorem forEach_traceBlind {α : Type} {f : α → State → Result} (hf : ∀ x, TraceBlind (f x)) (xs : List α) :
    TraceBlind (forEach xs f) := by
  induction xs with
  | nil => exact fun _ _ => rfl
  | cons x xs ih => exact fun es s => andThen_afterEvents (hf x es s) ih

theorem TraceBlind.ite {p : State → Prop} [DecidablePred p] {f g : State → Result}
    (hp : ∀ es s, p (withEarlier es s) ↔ p s) (hf : TraceBlind f) (hg : TraceBlind g) :
    TraceBlind fun s => if p s then f s else g s := by
  intro es s
  by_cases h : p s
  · simp only [if_pos h, if_pos ((hp es s).2 h), hf es s]
  · simp only [if_neg h, if_neg (mt (hp es s).1 h), hg es s]

theorem TraceBlind.whenAttached {f : State → Result} (hf : TraceBlind f) :
    TraceBlind fun s => whenAttached s (f s) := by
  intro es s
  simp only [Machine.whenAttached, withEarlier_life, hf es s]
  cases s.life <;> rfl

theorem emit_traceBlind (e : Event) : TraceBlind fun s => .next (emit s e) := fun es s =>
  congrArg Host.Outcome.next (emit_withEarlier es s e)

theorem returns_withEarlier (es : List Event) (s : State) (r : Ret) :
    returns (withEarlier es s) r = afterEvents es (returns s r) :=
  emit_traceBlind (.ret r) es s

/-! ### The environment calls -/

theorem flashGetIO_traceBlind : TraceBlindCall flashGetIO := by
  intro es s
  simp only [flashGetIO, withEarlier_env]
  split <;> simp

theorem flashGetPins_traceBlind : TraceBlindCall flashGetPins := by
  intro es s
  simp only [flashGetPins, withEarlier_env]
  split <;> simp

theorem scheduleRepeating_traceBlind : TraceBlindCall scheduleRepeating := by
  intro es s
  simp only [scheduleRepeating, withEarlier_env]
  split <;> simp

theorem chipRead_traceBlind (i : Fin 3) : TraceBlindCall (chipRead i) := by
  intro es s
  by_cases hfitted : s.cfg.chipFitted.get i = true
  · cases hbytes : s.env.chipBytes <;> simp [chipRead, hfitted, hbytes]
  · simp [chipRead, hfitted]

theorem chipReads_traceBlind (is : List (Fin 3)) : TraceBlindCall (chipReads is) := by
  induction is with
  | nil => exact fun _ _ => rfl
  | cons i is ih =>
    intro es s
    simp only [chipReads, chipRead_traceBlind i es s, ih es]

theorem mergeReads_traceBlind (bs : List Byte) : TraceBlindCall (mergeReads bs) := by
  intro es s
  match bs with
  | [] => rfl
  | [b] => rfl
  | b :: c :: bs =>
    simp only [mergeReads, withEarlier_cfg]
    cases s.cfg.demuxMerge <;> rfl

/-! ### Dispatch -/

theorem callHandler_traceBlind {onStrobe : Fin 11 → Bool → State → Result} (h : ∀ c v, TraceBlind (onStrobe c v))
    (hd : Handler) (l : Line) (v : Bool) : TraceBlind (callHandler onStrobe hd l v) := by
  cases hd with
  | strobe c => exact h c v
  | cs i => exact fun _ _ => rfl
  | ext => exact emit_traceBlind (.ext l v)

theorem sigSetWith_traceBlind {onStrobe : Fin 11 → Bool → State → Result} (h : ∀ c v, TraceBlind (onStrobe c v))
    (l : Line) (v : Bool) : TraceBlind (sigSetWith onStrobe l v) := by
  intro es s
  by_cases hquiet : (lineAt s l).handler = none ∨ v = (lineAt s l).disp
  · rw [sigSetWith_of_no_edge hquiet, sigSetWith_of_no_edge (s := withEarlier es s) hquiet]
    rfl
  · obtain ⟨hbound, hv⟩ := not_or.1 hquiet
    obtain ⟨hd, hl⟩ := Option.ne_none_iff_exists'.1 hbound
    rw [sigSetWith_of_edge hl hv, sigSetWith_of_edge (s := withEarlier es s) hl hv]
    exact callHandler_traceBlind h hd l v es (setLine s l ⟨v, v, some hd⟩)

theorem senseRow_traceBlind (r : Fin 7) : TraceBlind (senseRow r) :=
  .ite (p := fun s => rowSense s r = s.km.sense.getLsbD r.val) (fun _ _ => Iff.rfl) (fun _ _ => rfl)
    fun es s => sigSetWith_traceBlind (fun _ _ _ _ => rfl) (senseLine r) (rowSense s r) es s

theorem kmRecompute_traceBlind : TraceBlind kmRecompute :=
  .ite (p := fun s => s.running.km = true) (fun _ _ => Iff.rfl) (fun _ _ => rfl) fun es s =>
    andThen_afterEvents (forEach_traceBlind senseRow_traceBlind _ es (s.withRunning { s.running with km := true }))
      fun _ _ => rfl

theorem hStrobe_traceBlind (c : Fin 11) (v : Bool) : TraceBlind (hStrobe c v) :=
  .ite (p := fun s => s.running.km = true) (fun _ _ => Iff.rfl) (fun _ _ => rfl) fun es s =>
    kmRecompute_traceBlind es (s.withKm { s.km with strobe := putBit s.km.strobe c.val v })

theorem sigSet_traceBlind (l : Line) (v : Bool) : TraceBlind (sigSet l v) :=
  sigSetWith_traceBlind hStrobe_traceBlind l v

theorem hsyncFlip_traceBlind : TraceBlind hsyncFlip := fun es s =>
  sigSet_traceBlind hsyncLine (!s.hsync) es (s.withHsync (!s.hsync))

theorem expoutLane_traceBlind (diff new : Word) (b : Fin 32) : TraceBlind (expoutLane diff new b) :=
  .ite (p := fun _ => diff.getLsbD b.val = true) (fun _ _ => Iff.rfl) (sigSet_traceBlind _ _) fun _ _ => rfl

theorem expRecompute_traceBlind : TraceBlind expRecompute :=
  .ite (p := fun s => s.running.exp = true) (fun _ _ => Iff.rfl) (fun _ _ => rfl) fun es s =>
    andThen_afterEvents
      (forEach_traceBlind (expoutLane_traceBlind _ _) _ es (s.withRunning { s.running with exp := true })) fun _ _ => rfl

/-! ### Keys -/

theorem keyCell_traceBlind (row : Fin 7) (col : Fin 11) (up : Bool) : TraceBlind (keyCell row col up) :=
  .ite (p := fun s => s.running.km = true) (fun _ _ => Iff.rfl) (fun _ _ => rfl) fun es s =>
    kmRecompute_traceBlind es (s.withKm { s.km with
      pressed := s.km.pressed.set row.val (putBit (s.km.pressed.get ⟨row.val, by omega⟩) col.val (!up)) (by omega) })

theorem keyApply_traceBlind (code : Byte) : TraceBlind (keyApply code) := by
  intro es s
  unfold keyApply
  rw [withEarlier_cfg]
  split
  · rfl
  · split
    · exact keyCell_traceBlind _ _ _ es s
    · split
      · exact sigSet_traceBlind _ _ es s
      · rfl

theorem tickOnce_traceBlind : TraceBlind tickOnce :=
  .ite (p := fun s => s.queue.len = 0#5) (fun _ _ => Iff.rfl) (fun _ _ => rfl) fun es s =>
    keyApply_traceBlind _ es (s.withQueue { s.queue with head := s.queue.head + 1#4, len := s.queue.len - 1#5 })

theorem enqueue_traceBlind (code : Byte) : TraceBlind (enqueue code) :=
  .ite (p := fun s => s.queue.len = 16#5) (fun _ _ => Iff.rfl) (fun _ _ => rfl) fun _ _ => rfl

theorem injectIf_traceBlind {wanted : State → Bool} (h : ∀ es s, wanted (withEarlier es s) = wanted s) (code : Byte)
    (k : Nat) : TraceBlind (injectIf wanted code k) :=
  .ite (p := fun s => wanted s = true) (fun es s => by rw [h])
    (fun es s => andThen_afterEvents (enqueue_traceBlind code es s) fun _ _ => rfl) fun _ _ => rfl

theorem inject_traceBlind (e : BitVec 10) : TraceBlind (inject e) := fun es s =>
  andThen_afterEvents (injectIf_traceBlind (fun _ _ => rfl) _ _ es s) fun es s =>
  andThen_afterEvents (injectIf_traceBlind (fun _ _ => rfl) _ _ es s) fun es s =>
  andThen_afterEvents (injectIf_traceBlind (fun _ _ => rfl) _ _ es s) fun es s =>
  andThen_afterEvents (injectIf_traceBlind (fun _ _ => rfl) _ _ es s) fun es s =>
  injectIf_traceBlind (fun _ _ => rfl) _ _ es s

theorem releaseIf_traceBlind (owed : Bool) (code : Byte) : TraceBlind (releaseIf owed code) := by
  cases owed with
  | false => exact fun _ _ => rfl
  | true => exact enqueue_traceBlind code

theorem release_traceBlind : TraceBlind release := fun es s =>
  andThen_afterEvents (releaseIf_traceBlind _ _ es s) fun es s =>
  andThen_afterEvents (releaseIf_traceBlind _ _ es s) fun es s =>
  andThen_afterEvents (releaseIf_traceBlind _ _ es s) fun es s =>
  andThen_afterEvents (releaseIf_traceBlind _ _ es s) fun es s =>
  andThen_afterEvents (releaseIf_traceBlind _ _ es s) fun _ _ => rfl

theorem keyEvent_traceBlind (kc : BitVec 7) (up : Bool) : TraceBlind (keyEvent kc up) := by
  intro es s
  refine andThen_afterEvents ?_ (enqueue_traceBlind _)
  rw [withEarlier_cfg, shiftAny_withEarlier]
  split
  · rfl
  · split
    · exact release_traceBlind es s
    · split
      · rfl
      · exact inject_traceBlind _ es s

/-! ### The stimuli -/

theorem execNandRdIo_traceBlind (sz : Size) : TraceBlind (execNandRdIo sz) := by
  refine .whenAttached fun es s => ?_
  rw [flashGetIO_traceBlind es s]
  exact returns_withEarlier es (eccDigest (flashGetIO s).1 (flashGetIO s).2).2 _

theorem execNandRdCtl_traceBlind (sz : Size) : TraceBlind (execNandRdCtl sz) := by
  refine .whenAttached fun es s => ?_
  rw [flashGetPins_traceBlind es s]
  exact returns_withEarlier es (flashGetPins s).2 _

theorem execSspRd_traceBlind : TraceBlind execSspRd := by
  refine .whenAttached fun es s => ?_
  rw [selectedChips_withEarlier, chipReads_traceBlind _ es s]
  simp only [mergeReads_traceBlind _ es]
  exact returns_withEarlier es _ _

theorem execSspWr_traceBlind (b : Byte) : TraceBlind (execSspWr b) :=
  .whenAttached fun es s => forEach_traceBlind
    (fun i => emit_traceBlind (.chipWrite i b)) (selectedChips s) es s

theorem execExpRdStatus_traceBlind (sz : Size) : TraceBlind (execExpRdStatus sz) :=
  .whenAttached fun es s => andThen_afterEvents
    (TraceBlind.ite (p := fun s => s.cfg.hsyncOnExpStatusRead = true) (fun _ _ => Iff.rfl) hsyncFlip_traceBlind
      (g := .next) (fun _ _ => rfl) es s)
    fun es t => returns_withEarlier es t _

theorem execAttach_traceBlind : TraceBlind execAttach := by
  intro es s
  unfold execAttach
  rw [withEarlier_life, withEarlier_cfg, createElements_withEarlier]
  split
  · rfl
  · rfl
  · split
    · rfl
    · rw [scheduleRepeating_traceBlind es]
      rfl

theorem execTeardown_traceBlind : TraceBlind execTeardown := by
  intro es s
  unfold execTeardown
  rw [withEarlier_life]
  split
  · rw [emit_withEarlier]
    rfl
  · rfl
  · rfl

theorem unknownRead_traceBlind (dev : Dev) (sz : Size) (off : Byte) : TraceBlind (unknownRead dev sz off) := by
  intro es s
  unfold unknownRead
  rw [emit_withEarlier]
  exact returns_withEarlier es _ _

/-- No stimulus reads the trace. -/
theorem exec_traceBlind (i : Instr) : TraceBlind (exec i) := by
  cases i
  case attach => exact execAttach_traceBlind
  case teardown => exact execTeardown_traceBlind
  case nandRdIo sz => exact execNandRdIo_traceBlind sz
  case nandRdCtl sz => exact execNandRdCtl_traceBlind sz
  case expRdStatus sz => exact execExpRdStatus_traceBlind sz
  case sspRd => exact execSspRd_traceBlind
  case sspWr b => exact execSspWr_traceBlind b
  case sigSet l v => exact .whenAttached (sigSet_traceBlind l v)
  case hsyncNotify => exact .whenAttached hsyncFlip_traceBlind
  case expWrGpdir sz d =>
    exact .whenAttached fun es s => expRecompute_traceBlind es (s.withExp { s.exp with gpioDir := d.setWidth 32 })
  case expWrGpout sz d =>
    exact .whenAttached fun es s => expRecompute_traceBlind es (s.withExp { s.exp with gpioOut := d.setWidth 32 })
  case keyDown kc => exact .whenAttached (keyEvent_traceBlind kc false)
  case keyUp kc => exact .whenAttached (keyEvent_traceBlind kc true)
  case tick => exact .whenAttached tickOnce_traceBlind
  case nandRdEccclr | nandRdUnknown | expRdUnknown =>
    exact .whenAttached fun es s => unknownRead_traceBlind _ _ _ es s
  case nandRdEcclpl | nandRdEcclpu | nandRdEcccp | nandRdEcccnt | expRdMode | expRdCmddata | expRdPower | expRdClock
      | expRdIrr | expRdImask | expRdIstat | expRdGpdir | expRdGpout | expRdGprb | sigGet =>
    exact .whenAttached fun es s => returns_withEarlier es s _
  case nandWrEcclpl | nandWrEcclpu | nandWrEcccp | nandWrEcccnt | nandWrUnknown | expWrStatus | expWrGprb | expWrUnknown =>
    exact .whenAttached fun es s => emit_traceBlind _ es s
  case nandWrIo sz d =>
    exact .whenAttached fun es s => emit_traceBlind _ es (s.withEcc (digest s.cfg (d.setWidth 8) s.ecc))
  case nandWrCtl sz d =>
    exact .whenAttached fun es s => emit_traceBlind _ es (s.withNandCtl (ctlStoreValue s.cfg.ctlBits d))
  case nandWrEccclr | expWrMode | expWrCmddata | expWrPower | expWrClock | expWrIrctl | expWrImask | expWrIstat | sigReg =>
    exact .whenAttached fun _ _ => rfl

/-! ### The trace only grows -/

/-- What does not read the trace does from `s` what it does from an empty trace, after the events of `s`. -/
theorem TraceBlind.eq_after_emptyTrace {f : State → Result} (h : TraceBlind f) (s : State) :
    f s = afterEvents s.trace (f (s.withTrace [])) := by
  have hs : withEarlier s.trace (s.withTrace []) = s := by simp [withEarlier]
  rw [← h, hs]

theorem trace_of_afterEvents_eq_next {es : List Event} {r : Result} {t : State} (h : afterEvents es r = .next t) :
    ∃ fs, t.trace = es ++ fs := by
  cases r <;> cases h
  exact ⟨_, rfl⟩

theorem seen_of_afterEvents_eq_reentry {es : List Event} {r : Result} {dev : LoopDev} {seen : List Event}
    (h : afterEvents es r = .fault (.reentry dev seen)) : ∃ fs, seen = es ++ fs := by
  cases r with
  | next t => cases h
  | refused e => cases h
  | fault e =>
    cases e <;> cases h
    exact ⟨_, rfl⟩

/-- Settles O23: no stimulus reads the trace, so each runs as from an empty one, behind the events that stood there. -/
theorem traceIsNeverRead : Obligations.TraceIsNeverRead := by
  intro i s
  have hblind := exec_traceBlind i
  refine ⟨fun es => hblind es s, fun t h => ?_, fun dev seen h => ?_⟩
  · exact trace_of_afterEvents_eq_next ((hblind.eq_after_emptyTrace s).symm.trans h)
  · exact seen_of_afterEvents_eq_reentry ((hblind.eq_after_emptyTrace s).symm.trans h)

end Sys2Proof.Machine

/-! The NAND controller and its ECC engine (42_nand_ecc): the registers one by one, what a sequence of transfers makes of
the ECC state, and what of that state no stimulus can see.

The parities are linear: under the spec's digest every byte flips a bit of the ECC state by a function of the byte and its
number, so the bit is the parity of that function over the bytes (`digestAll_eq_oddParity`). Both parts of R123 are read
off this. -/

namespace Sys2Proof.Machine

/-! ## The column-parity table (R121) -/

/-- The bit columns whose parity stands in bit `k` of a column-parity entry (R121). -/
def parityColumns : Nat → List Nat
  | 0 => [0, 2, 4, 6]
  | 1 => [1, 3, 5, 7]
  | 2 => [0, 1, 4, 5]
  | 3 => [2, 3, 6, 7]
  | 4 => [0, 1, 2, 3]
  | 5 => [4, 5, 6, 7]
  | _ => List.range 8

theorem colparFormula_getLsbD (b : Byte) {k : Nat} (hk : k < 7) :
    (colparFormula b).getLsbD k = bitParity (parityColumns k) b := by
  simp only [colparFormula, BitVec.getLsbD_append, BitVec.getLsbD_ofBool]
  interval_cases k <;> simp [bitParity, oddParity, parityColumns, List.range_succ]

theorem colparTable_get (b : Byte) : colparTable.get b.toFin = colparFormula b := by
  rw [colparTable, get_tabulate]
  exact congrArg colparFormula (BitVec.eq_of_toNat_eq (by simp))

theorem colparTable_getLsbD (b : Byte) {k : Nat} (hk : k < 7) :
    (colparTable.get b.toFin).getLsbD k = bitParity (parityColumns k) b := by
  rw [colparTable_get, colparFormula_getLsbD b hk]

/-- Settles O17: each bit of an entry is the parity of its columns, written out. -/
theorem columnParityTable : Obligations.ColumnParityTable := by
  intro b
  refine ⟨?_, ?_, ?_, ?_, ?_, ?_, ?_⟩
  all_goals
    rw [colparTable_getLsbD b (by decide)]
    simp [bitParity, oddParity, parityColumns, List.range_succ]

/-! ## The readback registers (R111 to R114) -/

theorem readbackBit_standard_low (e : Ecc) {k : Nat} (hk : k < 4) :
    readbackBit standardReadback standardReadback.low e ⟨2 * k, by omega⟩ = e.lp0.getLsbD (4 + k) ∧
      readbackBit standardReadback standardReadback.low e ⟨2 * k + 1, by omega⟩ = e.lp1.getLsbD (4 + k) := by
  interval_cases k <;> simp [readbackBit, standardReadback, Vector.get_eq_getElem]

theorem readbackBit_standard_high (e : Ecc) {k : Nat} (hk : k < 4) :
    readbackBit standardReadback standardReadback.high e ⟨2 * k, by omega⟩ = e.lp0.getLsbD k ∧
      readbackBit standardReadback standardReadback.high e ⟨2 * k + 1, by omega⟩ = e.lp1.getLsbD k := by
  interval_cases k <;> simp [readbackBit, standardReadback, Vector.get_eq_getElem]

theorem visibleCount_toNat (e : Ecc) : (visibleCount e).toNat = e.count.toNat % 256 :=
  BitVec.toNat_setWidth 8 e.count

/-- Settles O13: the interleaved accumulators bit by bit, under any permutation and under that of R71. -/
theorem eccReadbackRegisters : Obligations.EccReadbackRegisters := by
  intro sz s hs
  have interleaved (bits : Vector (Fin 8) 8) := eccInterleave_spec s.cfg.eccReadback bits s.ecc
  refine ⟨⟨busWord_eq_busFields .read .nand sz 0x00#8 0#16, _, interleaved _, fun hstd k hk => ?_, whenAttached_of hs⟩,
    ⟨busWord_eq_busFields .read .nand sz 0x04#8 0#16, _, interleaved _, fun hstd k hk => ?_, whenAttached_of hs⟩,
    ⟨busWord_eq_busFields .read .nand sz 0x08#8 0#16, whenAttached_of hs⟩,
    busWord_eq_busFields .read .nand sz 0x0C#8 0#16, _, visibleCount_toNat s.ecc, whenAttached_of hs⟩
  · obtain ⟨even, odd⟩ := readbackBit_standard_low s.ecc hk
    rw [hstd] at interleaved ⊢
    exact ⟨(interleaved _ ⟨2 * k, by omega⟩).trans even, (interleaved _ ⟨2 * k + 1, by omega⟩).trans odd⟩
  · obtain ⟨even, odd⟩ := readbackBit_standard_high s.ecc hk
    rw [hstd] at interleaved ⊢
    exact ⟨(interleaved _ ⟨2 * k, by omega⟩).trans even, (interleaved _ ⟨2 * k + 1, by omega⟩).trans odd⟩

/-! ## The clear register (R117) -/

theorem exec_nandWrEccclr_of_attached {s : State} (hs : Attached s) (sz : Size) (data : Half) :
    exec (.nandWrEccclr sz data) s = .next (s.withEcc eccZero) := whenAttached_of hs

/-- Settles O15. -/
theorem eccClearZeroesEverything : Obligations.EccClearZeroesEverything := fun sz data _ hs =>
  ⟨busWord_eq_busFields .write .nand sz 0x10#8 data, exec_nandWrEccclr_of_attached hs sz data⟩

/-! ## The control register (R116, R119) -/

/-- How the flash chip answers for its ready/busy pin (log entry 3). -/
theorem flashGetPins_answer (s : State) :
    (∀ b rest, s.env.flashReady = b :: rest →
      (flashGetPins s).1 = b ∧ (flashGetPins s).2.env = { s.env with flashReady := rest }) ∧
    (s.env.flashReady = [] → (flashGetPins s).2.env = { s.env with draws := s.env.draws + 1 }) := by
  refine ⟨fun b rest h => ?_, fun h => ?_⟩
  · simp [flashGetPins, h, emit]
  · simp [flashGetPins, h, emit, advanceDraws]

theorem flashGetPins_state (s : State) : (flashGetPins s).2 =
    (s.withEnv (flashGetPins s).2.env).withTrace (s.trace ++ [.flashGetPins (flashGetPins s).1]) := by
  obtain ⟨env, h⟩ := flashGetPins_spec s
  rw [h]
  rfl

theorem exec_nandRdCtl_of_attached {s : State} (hs : Attached s) (sz : Size) :
    exec (.nandRdCtl sz) s = .next ((s.withEnv (flashGetPins s).2.env).withTrace (s.trace ++
      [.flashGetPins (flashGetPins s).1,
        .ret (.bus sz ((ctlReadValue s.cfg.ctlBits s.nandCtl (flashGetPins s).1).setWidth 32))])) := by
  have hread : exec (.nandRdCtl sz) s =
      nandReturns sz (ctlReadValue s.cfg.ctlBits s.nandCtl (flashGetPins s).1) (flashGetPins s).2 := whenAttached_of hs
  rw [hread, nandReturns, returns, emit, flashGetPins_state]
  simp [nandResult, State.withTrace, State.withEnv]

theorem getLsbD_ctlStoreValue (p : CtlBits) (data : Half) {k : Nat} (hk : k < 8) :
    (ctlStoreValue p data).getLsbD k = (data.getLsbD k && k != p.rb.val) := by
  simp [ctlStoreValue, rbMask, hk, bne, beq_eq_decide]

/-- Settles O14: the read by the flash chip's answer, the write by the bits of the stored value. -/
theorem nandControlRegister : Obligations.NandControlRegister := by
  intro sz data s hs
  obtain ⟨hlisted, hfree⟩ := flashGetPins_answer s
  refine ⟨⟨busWord_eq_busFields .read .nand sz 0x18#8 0#16, _, _, hlisted, hfree, exec_nandRdCtl_of_attached hs sz⟩,
    ⟨busWord_eq_busFields .write .nand sz 0x18#8 data, _, fun k => getLsbD_ctlStoreValue s.cfg.ctlBits data,
      whenAttached_of hs⟩, fun hstd => ?_⟩
  rw [hstd]
  decide

/-! ## The I/O register (R115, R118) -/

/-- How the flash chip answers a read (log entry 3). -/
theorem flashGetIO_answer (s : State) :
    (∀ b rest, s.env.flashBytes = b :: rest →
      (flashGetIO s).1 = b ∧ (flashGetIO s).2.env = { s.env with flashBytes := rest }) ∧
    (s.env.flashBytes = [] → (flashGetIO s).2.env = { s.env with draws := s.env.draws + 1 }) := by
  refine ⟨fun b rest h => ?_, fun h => ?_⟩
  · simp [flashGetIO, h, emit]
  · simp [flashGetIO, h, emit, advanceDraws]

theorem flashGetIO_state (s : State) : (flashGetIO s).2 =
    (s.withEnv (flashGetIO s).2.env).withTrace (s.trace ++ [.flashGetIO (flashGetIO s).1]) := by
  obtain ⟨env, h⟩ := flashGetIO_spec s
  rw [h]
  rfl

theorem exec_nandRdIo_of_attached {s : State} (hs : Attached s) (sz : Size) :
    exec (.nandRdIo sz) s = .next (((s.withEnv (flashGetIO s).2.env).withEcc
      (digest s.cfg (flashGetIO s).1 s.ecc)).withTrace (s.trace ++
        [.flashGetIO (flashGetIO s).1, .ret (.bus sz ((flashGetIO s).1.setWidth 32))])) := by
  have hread : exec (.nandRdIo sz) s =
      nandReturns sz (flashGetIO s).1 (eccDigest (flashGetIO s).1 (flashGetIO s).2).2 := whenAttached_of hs
  rw [hread, nandReturns, returns, emit, eccDigest, flashGetIO_state]
  simp [nandResult, State.withTrace, State.withEnv, State.withEcc]

theorem exec_nandWrIo_of_attached {s : State} (hs : Attached s) (sz : Size) (data : Half) :
    exec (.nandWrIo sz data) s = .next ((s.withEcc (digest s.cfg (data.setWidth 8) s.ecc)).withTrace
      (s.trace ++ [.flashSetIO (data.setWidth 8)])) := whenAttached_of hs

/-- Settles O16: both directions make one step of the digest, whatever it is. -/
theorem nandIoDigestsAndForwards : Obligations.NandIoDigestsAndForwards := by
  intro sz data s hs
  obtain ⟨hlisted, hfree⟩ := flashGetIO_answer s
  exact ⟨⟨busWord_eq_busFields .read .nand sz 0x14#8 0#16, _, _, _, hlisted, hfree, digest_spec _ _ _,
      exec_nandRdIo_of_attached hs sz⟩,
    busWord_eq_busFields .write .nand sz 0x14#8 data, _, _, BitVec.toNat_setWidth 8 data, digest_spec _ _ _,
      exec_nandWrIo_of_attached hs sz data⟩

/-! ## Every access of the span (R125) -/

/-- The stimulus completes, and the value it returns is its last event. -/
def ReturnsLast (sz : Size) (r : Result) : Prop :=
  ∃ t w, r = .next t ∧ t.trace.getLast? = some (.ret (.bus sz w))

theorem returnsLast_returns (sz : Size) (w : Word) (s : State) : ReturnsLast sz (returns s (.bus sz w)) :=
  ⟨_, w, rfl, by simp⟩

theorem nandRead_returnsLast {s : State} (hs : Attached s) (sz : Size) :
    ∀ i ∈ readsOf sz .nand, ReturnsLast sz (exec i s) := by
  have returned (w : Word) (u : State) : ReturnsLast sz (whenAttached s (returns u (.bus sz w))) := by
    rw [whenAttached_of hs]
    exact returnsLast_returns sz w u
  simp only [readsOf, List.forall_mem_cons]
  exact ⟨returned _ _, returned _ _, returned _ _, returned _ _, returned _ _, returned _ _, returned _ _,
    List.forall_mem_nil _⟩

theorem nandWrite_completes {s : State} (hs : Attached s) (sz : Size) (data : Half) :
    ∀ i ∈ writesOf sz data .nand, ∃ t, exec i s = .next t := by
  simp only [writesOf, List.forall_mem_cons]
  exact ⟨⟨_, whenAttached_of hs⟩, ⟨_, whenAttached_of hs⟩, ⟨_, whenAttached_of hs⟩, ⟨_, whenAttached_of hs⟩,
    ⟨_, whenAttached_of hs⟩, ⟨_, whenAttached_of hs⟩, ⟨_, whenAttached_of hs⟩, List.forall_mem_nil _⟩

theorem readInstr_nand_cases (m : RegisterMap) (sz : Size) (off : Byte) :
    readInstr m .nand sz off ∈ readsOf sz .nand ∨ readInstr m .nand sz off = .nandRdUnknown sz off := by
  simp only [readInstr, readsOf]
  split_ifs <;> simp

theorem writeInstr_nand_cases (m : RegisterMap) (sz : Size) (off : Byte) (data : Half) :
    writeInstr m .nand sz off data ∈ writesOf sz data .nand ∨
      writeInstr m .nand sz off data = .nandWrUnknown sz off data := by
  simp only [writeInstr, writesOf]
  split_ifs <;> simp

/-- Settles O21: an access names a register of the block or none, and both complete. -/
theorem nandAccessesAlwaysComplete : Obligations.NandAccessesAlwaysComplete := by
  intro s sz off data hs _
  refine ⟨?_, ?_⟩
  · rcases readInstr_nand_cases s.cfg.regs sz off with hreg | hunknown
    · exact nandRead_returnsLast hs sz _ hreg
    · rw [hunknown]
      exact ⟨_, 0#32, (whenAttached_of hs).trans (unknownRead_eq .nand sz off s), by simp⟩
  · rcases writeInstr_nand_cases s.cfg.regs sz off data with hreg | hunknown
    · exact nandWrite_completes hs sz data _ hreg
    · rw [hunknown]
      exact ⟨_, whenAttached_of hs⟩

/-! ## A sequence of transfers (R122) -/

/-- The ECC state after the bytes `bs`, one digest for each. -/
def digestAll (c : Config) (bs : List Byte) (e : Ecc) : Ecc := bs.foldl (fun e b => digest c b e) e

@[simp] theorem digestAll_nil (c : Config) (e : Ecc) : digestAll c [] e = e := rfl

theorem digestAll_append (c : Config) (as bs : List Byte) (e : Ecc) :
    digestAll c (as ++ bs) e = digestAll c bs (digestAll c as e) := List.foldl_append

theorem digestAll_congr {c c' : Config} (htable : c.colpar = c'.colpar) (hupdate : c.eccUpdate = c'.eccUpdate)
    (bs : List Byte) (e : Ecc) : digestAll c bs e = digestAll c' bs e := by
  have hdigest (b : Byte) (e : Ecc) : digest c b e = digest c' b e := by
    simp only [digest, accumulate, colpar, htable, hupdate]
  simp only [digestAll, hdigest]

/-- From `s` to `t` the bytes `bs` went through the I/O register: digested in their order, and each seen unchanged by the
CPU or by the flash chip. -/
structure Moves (bs : List Byte) (s t : State) : Prop where
  life : t.life = s.life
  cfg : t.cfg = s.cfg
  ecc : t.ecc = digestAll s.cfg bs s.ecc
  events : ∃ es, t.trace = s.trace ++ es ∧ es.filterMap ioByte = bs

theorem Moves.refl (s : State) : Moves [] s s := ⟨rfl, rfl, rfl, [], by simp⟩

theorem Moves.trans {as bs : List Byte} {s t u : State} (h : Moves as s t) (k : Moves bs t u) :
    Moves (as ++ bs) s u := by
  obtain ⟨es, hes, has⟩ := h.events
  obtain ⟨fs, hfs, hbs⟩ := k.events
  refine ⟨k.life.trans h.life, k.cfg.trans h.cfg, ?_, es ++ fs, by simp [hfs, hes], by simp [has, hbs]⟩
  rw [k.ecc, h.cfg, h.ecc, digestAll_append]

theorem Moves.attached {bs : List Byte} {s t : State} (h : Moves bs s t) (hs : Attached s) : Attached t := by
  obtain ⟨tick, hlife⟩ := hs
  exact ⟨tick, h.life.trans hlife⟩

theorem Transfer.run_moves (x : Transfer) {s : State} (hs : Attached s) : ∃ t, x.run s = .next t ∧ Moves [x.byte] s t := by
  cases x with
  | put sz data => exact ⟨_, exec_nandWrIo_of_attached hs sz data, rfl, rfl, rfl, _, rfl, rfl⟩
  | get sz b =>
    exact ⟨_, exec_nandRdIo_of_attached (s := s.withEnv { s.env with flashBytes := b :: s.env.flashBytes }) hs sz,
      rfl, rfl, rfl, _, rfl, by simp [List.filterMap_cons, ioByte, flashGetIO, Transfer.byte]⟩

/-- Transfers complete on an attached block, and all they do to the ECC state is to digest their bytes. -/
theorem runTransfers_moves (xs : List Transfer) {s : State} (hs : Attached s) :
    ∃ t, runTransfers xs s = .next t ∧ Moves (xs.map Transfer.byte) s t := by
  induction xs generalizing s with
  | nil => exact ⟨s, rfl, .refl s⟩
  | cons x xs ih =>
    obtain ⟨m, hx, hm⟩ := x.run_moves hs
    obtain ⟨t, hxs, ht⟩ := ih (hm.attached hs)
    exact ⟨t, andThen_eq_next.2 ⟨m, hx, hxs⟩, hm.trans ht⟩

/-- Settles O18: after a clear both blocks hold the digest of the same bytes from the same state. -/
theorem eccDependsOnlyOnTheBytes : Obligations.EccDependsOnlyOnTheBytes := by
  intro xs ys s u sz sz' d d' hbytes hs hu htable hupdate
  obtain ⟨s1, hxs, hs1⟩ := runTransfers_moves xs (s := s.withEcc eccZero) hs
  obtain ⟨u1, hys, hu1⟩ := runTransfers_moves ys (s := u.withEcc eccZero) hu
  obtain ⟨es, htrace, hes⟩ := hs1.events
  refine ⟨_, s1, _, u1, es, exec_nandWrEccclr_of_attached hs sz d, hxs, exec_nandWrEccclr_of_attached hu sz' d', hys,
    ?_, htrace, hes⟩
  rw [hs1.ecc, hu1.ecc, hbytes]
  exact digestAll_congr htable hupdate _ _

/-! ## The ECC state as parities of the bytes (R123) -/

@[simp] theorem oddParity_nil : oddParity [] = false := rfl

@[simp] theorem oddParity_cons (x : Bool) (xs : List Bool) : oddParity (x :: xs) = (x ^^ oddParity xs) :=
  calc oddParity (x :: xs)
      = xs.foldl xor (x ^^ false) := by simp only [oddParity, List.foldl_cons, Bool.false_xor, Bool.xor_false]
    _ = (x ^^ oddParity xs) := List.foldl_assoc

@[simp] theorem oddParity_append (xs ys : List Bool) : oddParity (xs ++ ys) = (oddParity xs ^^ oddParity ys) := by
  induction xs with
  | nil => simp
  | cons x xs ih => simp [ih]

/-- The parity over the elements kept by a filter: the others count as an even bit. -/
theorem oddParity_map_filter {α : Type} (p f : α → Bool) (xs : List α) :
    oddParity ((xs.filter p).map f) = oddParity (xs.map fun x => p x && f x) := by
  induction xs with
  | nil => rfl
  | cons x xs ih => cases h : p x <;> simp [h, ih]

/-- The line-parity accumulator `a`. -/
def lineParity : Accumulator → Ecc → Byte
  | .lp0, e => e.lp0
  | .lp1, e => e.lp1

/-- Whether a byte goes into bit `k` of accumulator `a`, `v` being bit `k` of its number: into that of `lp1` if `v` is set,
else into that of `lp0`. -/
def countsInto : Accumulator → Bool → Bool
  | .lp0, v => !v
  | .lp1, v => v

/-- A block with the digest of the spec (R120, R121). -/
def StandardDigest (c : Config) : Prop := c.colpar = colparTable ∧ c.eccUpdate = .lineColumn

section
variable {c : Config} (hc : StandardDigest c)
include hc

theorem digest_step (b : Byte) (e : Ecc) : DigestStep (colparTable.get b.toFin) e (digest c b e) := by
  obtain ⟨htable, hupdate⟩ := hc
  rw [← htable]
  exact (digest_spec c b e).standard hupdate

theorem digest_lineParity (a : Accumulator) (b : Byte) (e : Ecc) {k : Nat} (hk : k < 8) :
    (lineParity a (digest c b e)).getLsbD k =
      ((lineParity a e).getLsbD k ^^ (countsInto a (e.count.getLsbD k) && bitParity (List.range 8) b)) := by
  have hstep := digest_step hc b e
  have hparity : (colparTable.get b.toFin).getLsbD 6 = bitParity (List.range 8) b := colparTable_getLsbD b (by decide)
  rw [← hparity]
  cases hodd : (colparTable.get b.toFin).getLsbD 6 with
  | false =>
    obtain ⟨hlp0, hlp1⟩ := hstep.even hodd
    cases a <;> simp [lineParity, hlp0, hlp1]
  | true =>
    cases a with
    | lp0 => exact (hstep.oddLp0 hodd k hk).trans (by rw [Bool.and_true]; rfl)
    | lp1 => exact (hstep.oddLp1 hodd k hk).trans (by rw [Bool.and_true]; rfl)

theorem digest_cp (b : Byte) (e : Ecc) {k : Nat} (hk : k < 6) :
    (digest c b e).cp.getLsbD k = (e.cp.getLsbD k ^^ bitParity (parityColumns k) b) := by
  rw [(digest_step hc b e).column k hk, colparTable_getLsbD b (by omega)]

end

theorem digestAll_count (c : Config) (bs : List Byte) : (digestAll c bs eccZero).count = BitVec.ofNat 16 bs.length := by
  induction bs using List.reverseRecOn with
  | nil => rfl
  | append_singleton bs b ih =>
    rw [digestAll_append, List.length_append, BitVec.ofNat_add, ← ih]
    rfl

/-- A bit of the ECC state that every byte flips by some `f` of the byte and its number is the parity of `f` over the
bytes. -/
theorem digestAll_eq_oddParity {c : Config} {bit : Ecc → Bool} {f : Half → Byte → Bool} (hzero : bit eccZero = false)
    (hstep : ∀ b e, bit (digest c b e) = (bit e ^^ f e.count b)) (bs : List Byte) :
    bit (digestAll c bs eccZero) = oddParity (bs.zipIdx.map fun p => f (BitVec.ofNat 16 p.2) p.1) := by
  induction bs using List.reverseRecOn with
  | nil => exact hzero
  | append_singleton bs b ih =>
    have hlast : digestAll c (bs ++ [b]) eccZero = digest c b (digestAll c bs eccZero) := digestAll_append c bs [b] eccZero
    rw [hlast, hstep, ih, digestAll_count, List.zipIdx_append]
    simp

theorem getLsbD_ofNat_of_lt {w k : Nat} (hk : k < w) (n : Nat) : (BitVec.ofNat w n).getLsbD k = n.testBit k := by
  rw [BitVec.getLsbD_ofNat, decide_eq_true hk, Bool.true_and]

section
variable {c : Config} (hc : StandardDigest c)
include hc

theorem digestAll_lineParity (a : Accumulator) (bs : List Byte) {k : Nat} (hk : k < 8) :
    (lineParity a (digestAll c bs eccZero)).getLsbD k =
      oddParity (bs.zipIdx.map fun p => countsInto a (p.2.testBit k) && bitParity (List.range 8) p.1) := by
  have hzero : (lineParity a eccZero).getLsbD k = false := by cases a <;> exact BitVec.getLsbD_zero
  rw [digestAll_eq_oddParity (bit := fun e => (lineParity a e).getLsbD k)
    (f := fun n b => countsInto a (n.getLsbD k) && bitParity (List.range 8) b) hzero
    fun b e => digest_lineParity hc a b e hk]
  simp only [getLsbD_ofNat_of_lt (show k < 16 by omega)]

theorem digestAll_cp (bs : List Byte) {k : Nat} (hk : k < 6) : (digestAll c bs eccZero).cp.getLsbD k =
    oddParity (bs.map (bitParity (parityColumns k))) := by
  rw [digestAll_eq_oddParity (bit := fun e => e.cp.getLsbD k) (f := fun _ => bitParity (parityColumns k))
    BitVec.getLsbD_zero fun b e => digest_cp hc b e hk]
  have hfst := List.zipIdx_map_fst 0 bs
  conv_rhs => rw [← hfst]
  rw [List.map_map]
  rfl

end

/-- Bytes written from a cleared ECC state are digested from there. -/
theorem runTransfers_put_of_cleared (bs : List Byte) {s : State} (hs : Attached s) (hzero : s.ecc = eccZero) :
    ∃ t, runTransfers (bs.map fun b => .put .b1 (b.setWidth 16)) s = .next t ∧ t.ecc = digestAll s.cfg bs eccZero := by
  obtain ⟨t, hrun, hmoves⟩ := runTransfers_moves (bs.map fun b => .put .b1 (b.setWidth 16)) hs
  have hbytes : (bs.map fun b => Transfer.put .b1 (b.setWidth 16)).map Transfer.byte = bs := by
    simp [Function.comp_def, Transfer.byte]
  rw [hbytes] at hmoves
  exact ⟨t, hrun, by rw [hmoves.ecc, hzero]⟩

/-- Settles O19: every byte flips an accumulator bit by its own parity, so the bit is the parity over the bytes. -/
theorem eccStateIsLineAndColumnParity : Obligations.EccStateIsLineAndColumnParity := by
  intro bs s hs htable hupdate hzero _
  have hc : StandardDigest s.cfg := ⟨htable, hupdate⟩
  obtain ⟨t, hrun, hecc⟩ := runTransfers_put_of_cleared bs hs hzero
  refine ⟨t, hrun, ?_⟩
  simp only [oddParity_map_filter, hecc]
  exact ⟨fun k hk => ⟨digestAll_lineParity hc .lp1 bs hk, digestAll_lineParity hc .lp0 bs hk⟩, digestAll_cp hc bs (by decide),
    digestAll_cp hc bs (by decide), digestAll_cp hc bs (by decide), digestAll_cp hc bs (by decide),
    digestAll_cp hc bs (by decide), digestAll_cp hc bs (by decide)⟩

/-! ## One wrong bit (R123) -/

theorem oddParity_map_xor {α : Type} (f g : α → Bool) (xs : List α) :
    oddParity (xs.map fun x => f x ^^ g x) = (oddParity (xs.map f) ^^ oddParity (xs.map g)) := by
  induction xs with
  | nil => rfl
  | cons x xs ih =>
    simp only [List.map_cons, oddParity_cons, ih, Bool.xor_assoc, Bool.xor_left_comm]

theorem bitParity_xor (ks : List Nat) (a b : Byte) : bitParity ks (a ^^^ b) = (bitParity ks a ^^ bitParity ks b) := by
  simp only [bitParity, BitVec.getLsbD_xor, oddParity_map_xor]

/-- Lists that differ in one element differ in parity by what that element contributes. -/
theorem oddParity_change_one {α : Type} (f : α → Bool) (pre post : List α) (x y : α) :
    (oddParity ((pre ++ x :: post).map f) ^^ oddParity ((pre ++ y :: post).map f)) = (f x ^^ f y) := by
  have hcancel : ∀ a b u v : Bool, ((a ^^ (u ^^ b)) ^^ (a ^^ (v ^^ b))) = (u ^^ v) := by decide
  simp only [List.map_append, List.map_cons, oddParity_append, oddParity_cons]
  exact hcancel _ _ _ _

theorem zipIdx_append_cons {α : Type} (pre post : List α) (x : α) :
    (pre ++ x :: post).zipIdx = pre.zipIdx ++ (x, pre.length) :: post.zipIdx (pre.length + 1) := by
  simp [List.zipIdx_append]

/-- The parity of a byte sees every wrong bit. -/
theorem bitParity_byte_twoPow (j : Fin 8) : bitParity (List.range 8) (BitVec.twoPow 8 j.val) = true := by
  revert j; decide

section
variable {c : Config} (hc : StandardDigest c) (pre post : List Byte) (b : Byte) (j : Fin 8)
include hc

theorem digestAll_lineParity_xor (a : Accumulator) {k : Nat} (hk : k < 8) :
    (lineParity a (digestAll c (pre ++ b :: post) eccZero) ^^^
      lineParity a (digestAll c (pre ++ (b ^^^ BitVec.twoPow 8 j.val) :: post) eccZero)).getLsbD k =
      countsInto a (pre.length.testBit k) := by
  rw [BitVec.getLsbD_xor, digestAll_lineParity hc a _ hk, digestAll_lineParity hc a _ hk, zipIdx_append_cons,
    zipIdx_append_cons, oddParity_change_one, bitParity_xor, bitParity_byte_twoPow]
  simp [← Bool.and_xor_distrib_left]

theorem digestAll_cp_xor {k : Nat} (hk : k < 6) :
    ((digestAll c (pre ++ b :: post) eccZero).cp ^^^
      (digestAll c (pre ++ (b ^^^ BitVec.twoPow 8 j.val) :: post) eccZero).cp).getLsbD k =
      bitParity (parityColumns k) (BitVec.twoPow 8 j.val) := by
  rw [BitVec.getLsbD_xor, digestAll_cp hc _ hk, digestAll_cp hc _ hk, oddParity_change_one, bitParity_xor,
    ← Bool.xor_assoc, Bool.xor_self, Bool.false_xor]

end

/-- The odd column parities of a single bit spell its position (R123). -/
theorem bitParity_columns_twoPow (j : Fin 8) :
    bitParity (parityColumns 5) (BitVec.twoPow 8 j.val) = j.val.testBit 2 ∧
      bitParity (parityColumns 3) (BitVec.twoPow 8 j.val) = j.val.testBit 1 ∧
      bitParity (parityColumns 1) (BitVec.twoPow 8 j.val) = j.val.testBit 0 := by
  revert j; decide

/-- Settles O20: the parities are linear, so two ECC states differ by what the one wrong bit contributes: the index of its
byte, and the columns it stands in. -/
theorem singleBitErrorIsLocated : Obligations.SingleBitErrorIsLocated := by
  intro pre post b j s hs htable hupdate hzero _
  have hc : StandardDigest s.cfg := ⟨htable, hupdate⟩
  obtain ⟨t, hrunt, ht⟩ := runTransfers_put_of_cleared (pre ++ b :: post) hs hzero
  obtain ⟨u, hrunu, hu⟩ := runTransfers_put_of_cleared (pre ++ (b ^^^ BitVec.twoPow 8 j.val) :: post) hs hzero
  obtain ⟨col5, col3, col1⟩ := bitParity_columns_twoPow j
  refine ⟨t, u, hrunt, hrunu, ?_⟩
  rw [ht, hu]
  refine ⟨?_, ?_, ?_, ?_, ?_⟩
  · refine BitVec.eq_of_getLsbD_eq fun k hk => ?_
    rw [getLsbD_ofNat_of_lt hk]
    exact digestAll_lineParity_xor hc pre post b j .lp1 hk
  · refine BitVec.eq_of_getLsbD_eq fun k hk => ?_
    rw [BitVec.getLsbD_not, getLsbD_ofNat_of_lt hk, decide_eq_true hk, Bool.true_and]
    exact digestAll_lineParity_xor hc pre post b j .lp0 hk
  · rw [digestAll_cp_xor hc pre post b j (by decide), col5]
  · rw [digestAll_cp_xor hc pre post b j (by decide), col3]
  · rw [digestAll_cp_xor hc pre post b j (by decide), col1]

/-! ## The counter's high bits (R114, 10_state R17)

Two runs whose states differ in the counter's bits above bit 7 stay such: every operation answers the same in both. This is
proved once for each shared operation; only the counter's readback and the digest look at the counter at all, and both at its
low byte. -/

/-- The state with the ECC counter at `n`. -/
def withCount (n : Half) (s : State) : State := s.withEcc { s.ecc with count := n }

@[simp] theorem withCount_env (n : Half) (s : State) : (withCount n s).env = s.env := rfl
@[simp] theorem withCount_cfg (n : Half) (s : State) : (withCount n s).cfg = s.cfg := rfl
@[simp] theorem withCount_life (n : Half) (s : State) : (withCount n s).life = s.life := rfl
@[simp] theorem withCount_input (n : Half) (s : State) : (withCount n s).input = s.input := rfl
@[simp] theorem selectedChips_withCount (n : Half) (s : State) : selectedChips (withCount n s) = selectedChips s := rfl
@[simp] theorem shiftAny_withCount (n : Half) (s : State) : shiftAny (withCount n s) = shiftAny s := rfl
@[simp] theorem createElements_withCount (n : Half) (s : State) : createElements (withCount n s) = createElements s := rfl

/-- The visible bits of `n` are those of the counter. -/
def AgreesInLowByte (n : Half) (s : State) : Prop := n.extractLsb' 0 8 = s.ecc.count.extractLsb' 0 8

theorem sameVisibleCount_iff {s t : State} :
    SameVisibleCount s t ↔ ∃ n, AgreesInLowByte n s ∧ t = withCount n s := by
  refine ⟨fun ⟨ht, hlow⟩ => ⟨_, hlow, ht⟩, ?_⟩
  rintro ⟨n, hlow, rfl⟩
  exact ⟨rfl, hlow⟩

theorem SameVisibleCount.refl (s : State) : SameVisibleCount s s := ⟨rfl, rfl⟩

theorem SameVisibleOutcome.refl (r : Result) : SameVisibleOutcome r r := by
  cases r with
  | next s => exact SameVisibleCount.refl s
  | fault e => exact rfl
  | refused e => exact rfl

/-- Nothing of what `f` does depends on the counter's high bits. -/
def CountBlind (f : State → Result) : Prop :=
  ∀ n s, AgreesInLowByte n s → SameVisibleOutcome (f s) (f (withCount n s))

/-- `f` answers the same value whatever the counter's high bits. -/
def CountBlindCall {α : Type} (f : State → α × State) : Prop :=
  ∀ n s, AgreesInLowByte n s → (f (withCount n s)).1 = (f s).1 ∧ SameVisibleCount (f s).2 (f (withCount n s)).2

theorem CountBlind.sameVisible {f : State → Result} (hf : CountBlind f) {s t : State} (h : SameVisibleCount s t) :
    SameVisibleOutcome (f s) (f t) := by
  obtain ⟨n, hlow, rfl⟩ := sameVisibleCount_iff.1 h
  exact hf n s hlow

/-! ### Sequencing -/

theorem SameVisibleOutcome.andThen {r r' : Result} {k : State → Result} (hr : SameVisibleOutcome r r')
    (hk : CountBlind k) : SameVisibleOutcome (andThen r k) (andThen r' k) := by
  cases r <;> cases r'
  case next.next s t => exact hk.sameVisible hr
  case fault.fault => exact hr
  case refused.refused => exact hr
  all_goals exact hr.elim

theorem forEach_countBlind {α : Type} {f : α → State → Result} (hf : ∀ x, CountBlind (f x)) (xs : List α) :
    CountBlind (forEach xs f) := by
  induction xs with
  | nil => exact fun _ _ hlow => ⟨rfl, hlow⟩
  | cons x xs ih => exact fun n s hlow => (hf x n s hlow).andThen ih

theorem CountBlind.ite {p : State → Prop} [DecidablePred p] {f g : State → Result}
    (hp : ∀ n s, p (withCount n s) ↔ p s) (hf : CountBlind f) (hg : CountBlind g) :
    CountBlind fun s => if p s then f s else g s := by
  intro n s hlow
  by_cases h : p s
  · simp only [if_pos h, if_pos ((hp n s).2 h)]
    exact hf n s hlow
  · simp only [if_neg h, if_neg (mt (hp n s).1 h)]
    exact hg n s hlow

theorem CountBlind.whenAttached {f : State → Result} (hf : CountBlind f) : CountBlind fun s => whenAttached s (f s) := by
  intro n s hlow
  simp only [Machine.whenAttached, withCount_life]
  cases s.life with
  | attached tick => exact hf n s hlow
  | detached => exact rfl
  | tornDown => exact rfl

theorem emit_countBlind (e : Event) : CountBlind fun s => .next (emit s e) := fun _ _ hlow => ⟨rfl, hlow⟩

theorem returns_countBlind (r : Ret) : CountBlind fun s => returns s r := emit_countBlind (.ret r)

theorem unknownRead_countBlind (dev : Dev) (sz : Size) (off : Byte) : CountBlind (unknownRead dev sz off) :=
  fun _ _ hlow => ⟨rfl, hlow⟩

/-! ### The environment calls -/

theorem flashGetIO_countBlind : CountBlindCall flashGetIO := by
  intro n s hlow
  simp only [flashGetIO, withCount_env]
  split <;> exact ⟨rfl, rfl, hlow⟩

theorem flashGetPins_countBlind : CountBlindCall flashGetPins := by
  intro n s hlow
  simp only [flashGetPins, withCount_env]
  split <;> exact ⟨rfl, rfl, hlow⟩

theorem chipRead_countBlind (i : Fin 3) : CountBlindCall (chipRead i) := by
  intro n s hlow
  cases hfitted : s.cfg.chipFitted.get i with
  | true =>
    simp only [chipRead, withCount_env, withCount_cfg, hfitted, if_true]
    split <;> exact ⟨rfl, rfl, hlow⟩
  | false =>
    simp only [chipRead, withCount_cfg, hfitted, Bool.false_eq_true, if_false]
    exact ⟨trivial, rfl, hlow⟩

theorem chipReads_countBlind (is : List (Fin 3)) : CountBlindCall (chipReads is) := by
  induction is with
  | nil => exact fun n s hlow => ⟨rfl, rfl, hlow⟩
  | cons i is ih =>
    intro n s hlow
    obtain ⟨hbyte, hstate⟩ := chipRead_countBlind i n s hlow
    obtain ⟨m, hm, hread⟩ := sameVisibleCount_iff.1 hstate
    obtain ⟨hbytes, hstates⟩ := ih m (chipRead i s).2 hm
    simp only [chipReads, hbyte, hread, hbytes]
    exact ⟨trivial, hstates⟩

theorem mergeReads_countBlind (bs : List Byte) : CountBlindCall (mergeReads bs) := by
  intro n s hlow
  match bs with
  | [] => exact ⟨rfl, rfl, hlow⟩
  | [b] => exact ⟨rfl, rfl, hlow⟩
  | b :: c :: bs =>
    simp only [mergeReads, withCount_cfg]
    cases s.cfg.demuxMerge <;> exact ⟨rfl, rfl, hlow⟩

/-! ### Dispatch -/

theorem callHandler_countBlind {onStrobe : Fin 11 → Bool → State → Result} (h : ∀ c v, CountBlind (onStrobe c v))
    (hd : Handler) (l : Line) (v : Bool) : CountBlind (callHandler onStrobe hd l v) := by
  cases hd with
  | strobe c => exact h c v
  | cs i => exact fun _ _ hlow => ⟨rfl, hlow⟩
  | ext => exact emit_countBlind (.ext l v)

theorem sigSetWith_countBlind {onStrobe : Fin 11 → Bool → State → Result} (h : ∀ c v, CountBlind (onStrobe c v))
    (l : Line) (v : Bool) : CountBlind (sigSetWith onStrobe l v) := by
  intro n s hlow
  by_cases hquiet : (lineAt s l).handler = none ∨ v = (lineAt s l).disp
  · rw [sigSetWith_of_no_edge hquiet, sigSetWith_of_no_edge (s := withCount n s) hquiet]
    exact ⟨rfl, hlow⟩
  · obtain ⟨hbound, hv⟩ := not_or.1 hquiet
    obtain ⟨hd, hl⟩ := Option.ne_none_iff_exists'.1 hbound
    rw [sigSetWith_of_edge hl hv, sigSetWith_of_edge (s := withCount n s) hl hv]
    exact callHandler_countBlind h hd l v n (setLine s l ⟨v, v, some hd⟩) hlow

theorem hStrobeReentry_countBlind (c : Fin 11) (v : Bool) : CountBlind (hStrobeReentry c v) := fun _ _ _ => rfl

theorem senseRow_countBlind (r : Fin 7) : CountBlind (senseRow r) :=
  .ite (p := fun s => rowSense s r = s.km.sense.getLsbD r.val) (fun _ _ => Iff.rfl) (fun _ _ hlow => ⟨rfl, hlow⟩)
    fun n s => sigSetWith_countBlind hStrobeReentry_countBlind (senseLine r) (rowSense s r) n s

theorem kmRecompute_countBlind : CountBlind kmRecompute :=
  .ite (p := fun s => s.running.km = true) (fun _ _ => Iff.rfl) (fun _ _ _ => rfl) fun n s hlow =>
    (forEach_countBlind senseRow_countBlind _ n (s.withRunning { s.running with km := true }) hlow).andThen
      fun _ _ hlow => ⟨rfl, hlow⟩

theorem hStrobe_countBlind (c : Fin 11) (v : Bool) : CountBlind (hStrobe c v) :=
  .ite (p := fun s => s.running.km = true) (fun _ _ => Iff.rfl) (fun _ _ _ => rfl) fun n s =>
    kmRecompute_countBlind n (s.withKm { s.km with strobe := putBit s.km.strobe c.val v })

theorem sigSet_countBlind (l : Line) (v : Bool) : CountBlind (sigSet l v) :=
  sigSetWith_countBlind hStrobe_countBlind l v

theorem hsyncFlip_countBlind : CountBlind hsyncFlip := fun n s =>
  sigSet_countBlind hsyncLine (!s.hsync) n (s.withHsync (!s.hsync))

theorem expoutLane_countBlind (diff new : Word) (b : Fin 32) : CountBlind (expoutLane diff new b) :=
  .ite (p := fun _ => diff.getLsbD b.val = true) (fun _ _ => Iff.rfl) (sigSet_countBlind _ _)
    fun _ _ hlow => ⟨rfl, hlow⟩

theorem expRecompute_countBlind : CountBlind expRecompute :=
  .ite (p := fun s => s.running.exp = true) (fun _ _ => Iff.rfl) (fun _ _ _ => rfl) fun n s hlow =>
    (forEach_countBlind (expoutLane_countBlind _ _) _ n (s.withRunning { s.running with exp := true }) hlow).andThen
      fun _ _ hlow => ⟨rfl, hlow⟩

/-! ### Keys -/

theorem keyCell_countBlind (row : Fin 7) (col : Fin 11) (up : Bool) : CountBlind (keyCell row col up) :=
  .ite (p := fun s => s.running.km = true) (fun _ _ => Iff.rfl) (fun _ _ _ => rfl) fun n s =>
    kmRecompute_countBlind n (s.withKm { s.km with
      pressed := s.km.pressed.set row.val (putBit (s.km.pressed.get ⟨row.val, by omega⟩) col.val (!up)) (by omega) })

theorem keyApply_countBlind (code : Byte) : CountBlind (keyApply code) := by
  intro n s hlow
  unfold keyApply
  rw [withCount_cfg]
  split
  · exact ⟨rfl, hlow⟩
  · split
    · exact keyCell_countBlind _ _ _ n s hlow
    · split
      · exact sigSet_countBlind _ _ n s hlow
      · exact rfl

theorem tickOnce_countBlind : CountBlind tickOnce :=
  .ite (p := fun s => s.queue.len = 0#5) (fun _ _ => Iff.rfl) (fun _ _ hlow => ⟨rfl, hlow⟩) fun n s =>
    keyApply_countBlind _ n (s.withQueue { s.queue with head := s.queue.head + 1#4, len := s.queue.len - 1#5 })

theorem enqueue_countBlind (code : Byte) : CountBlind (enqueue code) :=
  .ite (p := fun s => s.queue.len = 16#5) (fun _ _ => Iff.rfl) (fun _ _ _ => rfl) fun _ _ hlow => ⟨rfl, hlow⟩

theorem injectIf_countBlind {wanted : State → Bool} (h : ∀ n s, wanted (withCount n s) = wanted s) (code : Byte)
    (k : Nat) : CountBlind (injectIf wanted code k) :=
  .ite (p := fun s => wanted s = true) (fun n s => by rw [h])
    (fun n s hlow => (enqueue_countBlind code n s hlow).andThen fun _ _ hlow => ⟨rfl, hlow⟩)
    fun _ _ hlow => ⟨rfl, hlow⟩

theorem inject_countBlind (e : BitVec 10) : CountBlind (inject e) := fun n s hlow =>
  (injectIf_countBlind (fun _ _ => rfl) _ _ n s hlow).andThen fun n s hlow =>
  (injectIf_countBlind (fun _ _ => rfl) _ _ n s hlow).andThen fun n s hlow =>
  (injectIf_countBlind (fun _ _ => rfl) _ _ n s hlow).andThen fun n s hlow =>
  (injectIf_countBlind (fun _ _ => rfl) _ _ n s hlow).andThen fun n s hlow =>
  injectIf_countBlind (fun _ _ => rfl) _ _ n s hlow

theorem releaseIf_countBlind (owed : Bool) (code : Byte) : CountBlind (releaseIf owed code) := by
  cases owed with
  | false => exact fun _ _ hlow => ⟨rfl, hlow⟩
  | true => exact enqueue_countBlind code

theorem release_countBlind : CountBlind release := fun n s hlow =>
  (releaseIf_countBlind _ _ n s hlow).andThen fun n s hlow =>
  (releaseIf_countBlind _ _ n s hlow).andThen fun n s hlow =>
  (releaseIf_countBlind _ _ n s hlow).andThen fun n s hlow =>
  (releaseIf_countBlind _ _ n s hlow).andThen fun n s hlow =>
  (releaseIf_countBlind _ _ n s hlow).andThen fun _ _ hlow => ⟨rfl, hlow⟩

theorem keyEvent_countBlind (kc : BitVec 7) (up : Bool) : CountBlind (keyEvent kc up) := by
  intro n s hlow
  refine SameVisibleOutcome.andThen ?_ (enqueue_countBlind _)
  rw [withCount_cfg, shiftAny_withCount]
  split
  · exact ⟨rfl, hlow⟩
  · split
    · exact release_countBlind n s hlow
    · split
      · exact ⟨rfl, hlow⟩
      · exact inject_countBlind _ n s hlow

/-! ### The stimuli -/

theorem visibleCount_withCount {n : Half} {s : State} (hlow : AgreesInLowByte n s) :
    visibleCount (withCount n s).ecc = visibleCount s.ecc := by
  rw [visibleCount_eq_extract, visibleCount_eq_extract]
  exact hlow

theorem execNandRdEcccnt_countBlind (sz : Size) : CountBlind (execNandRdEcccnt sz) := by
  refine .whenAttached fun n s hlow => ?_
  rw [visibleCount_withCount hlow]
  exact returns_countBlind _ n s hlow

theorem eccDigest_countBlind (b : Byte) : CountBlindCall (eccDigest b) := by
  intro n s hlow
  obtain ⟨hdigest, hlow'⟩ := digest_count s.cfg b s.ecc n hlow
  refine ⟨rfl, sameVisibleCount_iff.2 ⟨n + 1#16, hlow', ?_⟩⟩
  exact congrArg s.withEcc hdigest

theorem execNandRdIo_countBlind (sz : Size) : CountBlind (execNandRdIo sz) := by
  refine .whenAttached fun n s hlow => ?_
  obtain ⟨hbyte, hstate⟩ := flashGetIO_countBlind n s hlow
  obtain ⟨m, hm, hgot⟩ := sameVisibleCount_iff.1 hstate
  simp only [hbyte, hgot]
  exact (returns_countBlind _).sameVisible (eccDigest_countBlind _ m _ hm).2

theorem execNandWrIo_countBlind (sz : Size) (d : Half) : CountBlind (execNandWrIo sz d) :=
  .whenAttached fun n s hlow => (emit_countBlind _).sameVisible (eccDigest_countBlind _ n s hlow).2

theorem execNandRdCtl_countBlind (sz : Size) : CountBlind (execNandRdCtl sz) := by
  refine .whenAttached fun n s hlow => ?_
  obtain ⟨hlevel, hstate⟩ := flashGetPins_countBlind n s hlow
  simp only [hlevel]
  exact (returns_countBlind _).sameVisible hstate

theorem execSspRd_countBlind : CountBlind execSspRd := by
  refine .whenAttached fun n s hlow => ?_
  obtain ⟨hbytes, hstate⟩ := chipReads_countBlind (selectedChips s) n s hlow
  obtain ⟨m, hm, hread⟩ := sameVisibleCount_iff.1 hstate
  obtain ⟨hbyte, hmerged⟩ := mergeReads_countBlind (chipReads (selectedChips s) s).1 m _ hm
  simp only [selectedChips_withCount, hbytes, hread, hbyte]
  exact (returns_countBlind _).sameVisible hmerged

theorem execSspWr_countBlind (b : Byte) : CountBlind (execSspWr b) :=
  .whenAttached fun n s => forEach_countBlind (fun i => emit_countBlind (.chipWrite i b)) (selectedChips s) n s

theorem execExpRdStatus_countBlind (sz : Size) : CountBlind (execExpRdStatus sz) :=
  .whenAttached fun n s hlow => SameVisibleOutcome.andThen
    (CountBlind.ite (p := fun s => s.cfg.hsyncOnExpStatusRead = true) (fun _ _ => Iff.rfl) hsyncFlip_countBlind
      (g := .next) (fun _ _ hlow => ⟨rfl, hlow⟩) n s hlow)
    fun n t => returns_countBlind _ n t

/-- `ATTACH` gives the counter a value of its own (70_reset_and_hazards R262). -/
theorem execAttach_countBlind : CountBlind execAttach := by
  intro n s _
  have hsame : execAttach (withCount n s) = execAttach s := by
    unfold execAttach
    rw [withCount_life, withCount_cfg, createElements_withCount]
  rw [hsame]
  exact SameVisibleOutcome.refl _

theorem execTeardown_countBlind : CountBlind execTeardown := by
  intro n s hlow
  unfold execTeardown
  rw [withCount_life]
  split
  · exact ⟨rfl, hlow⟩
  · exact rfl
  · exact rfl

/-- No stimulus sees the counter's high bits. -/
theorem exec_countBlind (i : Instr) : CountBlind (exec i) := by
  cases i
  case attach => exact execAttach_countBlind
  case teardown => exact execTeardown_countBlind
  case nandRdEcccnt sz => exact execNandRdEcccnt_countBlind sz
  case nandRdIo sz => exact execNandRdIo_countBlind sz
  case nandWrIo sz d => exact execNandWrIo_countBlind sz d
  case nandWrEccclr => exact .whenAttached fun _ _ _ => SameVisibleOutcome.refl _
  case nandRdCtl sz => exact execNandRdCtl_countBlind sz
  case expRdStatus sz => exact execExpRdStatus_countBlind sz
  case sspRd => exact execSspRd_countBlind
  case sspWr b => exact execSspWr_countBlind b
  case sigSet l v => exact .whenAttached (sigSet_countBlind l v)
  case hsyncNotify => exact .whenAttached hsyncFlip_countBlind
  case expWrGpdir sz d =>
    exact .whenAttached fun n s => expRecompute_countBlind n (s.withExp { s.exp with gpioDir := d.setWidth 32 })
  case expWrGpout sz d =>
    exact .whenAttached fun n s => expRecompute_countBlind n (s.withExp { s.exp with gpioOut := d.setWidth 32 })
  case keyDown kc => exact .whenAttached (keyEvent_countBlind kc false)
  case keyUp kc => exact .whenAttached (keyEvent_countBlind kc true)
  case tick => exact .whenAttached tickOnce_countBlind
  -- What is left answers from, or writes, elements other than the counter.
  all_goals exact .whenAttached fun _ _ hlow => ⟨rfl, hlow⟩

theorem step_countBlind : CountBlind step := by
  intro n s hlow
  unfold step
  rw [withCount_input, withCount_cfg]
  split
  · exact ⟨rfl, hlow⟩
  · split
    · exact exec_countBlind _ n (s.withInput _) hlow
    · exact rfl

/-- Settles O58: no operation sees more of the counter than its low byte. -/
theorem counterHighBitsAreNeverVisible : Obligations.CounterHighBitsAreNeverVisible :=
  ⟨fun i _ _ => (exec_countBlind i).sameVisible, fun _ _ => step_countBlind.sameVisible⟩

end Sys2Proof.Machine

/-! The GPIO expander and the horizontal-sync shim (43_gpio_expander): what each register access makes of an attached block,
and the recomputation of the visible level (R165) as a loop over the changed bits alone, which under the wiring discipline
of 70_reset_and_hazards R276 moves the EXPOUT lines and nothing else. -/

namespace Sys2Proof.Machine

/-! ## Register reads (R140 to R150) -/

/-- The value of a read fits the access whatever stands above the low byte of a narrow one (20_memory R44). -/
theorem returnsHalf_expResult (sz : Size) (off : Byte) (v : Half) : ReturnsHalf sz v (expResult sz off v) := by
  have hwide : ReturnsHalf sz v (v.setWidth 32) := ⟨by simp, by simp; omega, fun _ => rfl⟩
  cases sz with
  | b1 =>
    refine ⟨?_, ?_, fun hne => absurd rfl hne⟩
    · rw [expResult, BitVec.setWidth_setWidth_of_le _ (by decide), BitVec.setWidth_append]; simp
    · rw [expResult, BitVec.toNat_setWidth]; omega
  | b2 => exact hwide
  | b4 => exact hwide

theorem readsRegister_of_expReturns {i : Instr} {sz : Size} {off : Byte} {v : Half} {s : State} (hs : Attached s)
    (h : exec i s = whenAttached s (expReturns sz off v s)) : ReadsRegister i sz v s :=
  ⟨expResult sz off v, returnsHalf_expResult sz off v, h.trans (whenAttached_of hs)⟩

/-- The 16-bit window of a GPIO register (R148 to R150). -/
theorem extractLsb'_low_half (x : Word) : x.extractLsb' 0 16 = x.setWidth 16 :=
  (BitVec.setWidth_eq_extractLsb' (by decide)).symm

/-- Settles O24, register by register. -/
theorem expanderRegisterReads : Obligations.ExpanderRegisterReads := by
  intro sz s hs
  simp only [extractLsb'_low_half]
  have hword := fun off => busWord_eq_busFields .read .exp sz off 0#16
  exact ⟨⟨hword 0x00#8, readsRegister_of_expReturns hs rfl⟩, ⟨hword 0x04#8, readsRegister_of_expReturns hs rfl⟩,
    ⟨hword 0x0C#8, readsRegister_of_expReturns hs rfl⟩, ⟨hword 0x10#8, readsRegister_of_expReturns hs rfl⟩,
    ⟨hword 0x18#8, readsRegister_of_expReturns hs rfl⟩, ⟨hword 0x1C#8, readsRegister_of_expReturns hs rfl⟩,
    ⟨hword 0x20#8, readsRegister_of_expReturns hs rfl⟩, ⟨hword 0x24#8, readsRegister_of_expReturns hs rfl⟩,
    ⟨hword 0x28#8, readsRegister_of_expReturns hs rfl⟩⟩

/-! ## The horizontal-sync notification (R170) -/

section
variable {s : State}

theorem exec_hsyncNotify_of_attached (hs : Attached s) :
    exec .hsyncNotify s = sigSet hsyncLine (!s.hsync) (s.withHsync (!s.hsync)) := whenAttached_of hs

/-- A line with its external handler that is set against its level makes one call and stands at the new level. -/
theorem sigSet_externalAt {l : Line} {v : Bool} (h : ExternalAt s l (!v)) :
    sigSet l v s = .next ((setLine s l ⟨v, v, some .ext⟩).withTrace (s.trace ++ [.ext l v])) := by
  have hline : lineAt s l = ⟨!v, !v, some .ext⟩ := h
  exact sigSetWith_ext (by rw [hline]) (by rw [hline]; simp)

/-- The state after a notification whose line stood at the phase. -/
theorem exec_hsyncNotify_external (hs : Attached s) (h : ExternalAt s hsyncLine s.hsync) :
    exec .hsyncNotify s = .next ((setLine (s.withHsync (!s.hsync)) hsyncLine ⟨!s.hsync, !s.hsync, some .ext⟩).withTrace
      (s.trace ++ [.ext hsyncLine (!s.hsync)])) := by
  rw [exec_hsyncNotify_of_attached hs]
  exact sigSet_externalAt (s := s.withHsync (!s.hsync)) (by rw [Bool.not_not]; exact h)

/-- Settles O32: the notification is a `SigSet`, and with the external handler on a line at the phase it has an edge. -/
theorem hsyncNotifyTogglesTheLine : Obligations.HsyncNotifyTogglesTheLine := by
  intro s hs
  refine ⟨rfl, ?_, fun h => ⟨_, exec_hsyncNotify_external hs h, rfl, lineAt_setLine_self _ _ _⟩⟩
  rw [exec_hsyncNotify_of_attached hs]
  exact (exec_sigSet_of_attached (s := s.withHsync (!s.hsync)) hs _ _).symm

/-! ## The two constants (R142, R145) -/

theorem exec_expRdStatus_of_notifying (hs : Attached s) (hc : s.cfg.hsyncOnExpStatusRead = true) (sz : Size) :
    exec (.expRdStatus sz) s =
      andThen (exec .hsyncNotify s) fun t => expReturns sz 0x08#8 t.exp.status t := by
  refine (whenAttached_of hs).trans ?_
  rw [if_pos hc, exec_hsyncNotify_of_attached hs]
  rfl

theorem exec_expRdStatus_of_silent (hs : Attached s) (hc : s.cfg.hsyncOnExpStatusRead = false) (sz : Size) :
    exec (.expRdStatus sz) s = whenAttached s (expReturns sz 0x08#8 s.exp.status s) := by
  rw [whenAttached_of hs]
  refine (whenAttached_of hs).trans ?_
  rw [if_neg (by simp [hc]), andThen_next]

/-- The notification touches no register. -/
theorem exec_hsyncNotify_exp {m : State} (h : exec .hsyncNotify s = .next m) : m.exp = s.exp :=
  (sigSet_frame (whenAttached_eq_next.1 h).2).exp

end

/-- Settles O25: the constants of the session; a notification before the read leaves them. -/
theorem statusAndIrrReadAsConstants : Obligations.StatusAndIrrReadAsConstants := by
  intro sz s hs hsession
  obtain ⟨-, hstatus, hirr⟩ := hsession hs
  have hword := fun off => busWord_eq_busFields .read .exp sz off 0#16
  rw [← hstatus, ← hirr]
  refine ⟨⟨hword 0x14#8, readsRegister_of_expReturns hs rfl⟩, hword 0x08#8,
    fun hc => readsRegister_of_expReturns hs (exec_expRdStatus_of_silent hs hc sz), fun hc =>
    ⟨fun hline => ⟨_, exec_hsyncNotify_external hs hline⟩, fun m hm => ?_, fun e he => ?_⟩⟩
  · refine ⟨expResult sz 0x08#8 s.exp.status, returnsHalf_expResult _ _ _, ?_⟩
    rw [exec_expRdStatus_of_notifying hs hc, hm, andThen_next, exec_hsyncNotify_exp hm]
    rfl
  · rw [exec_expRdStatus_of_notifying hs hc, he, andThen_fault]

/-! ## Register writes without a recomputation (R151 to R156, R159) -/

/-- Settles O26, register by register. -/
theorem expanderStorageWrites : Obligations.ExpanderStorageWrites := by
  intro sz data s hs
  have hword := fun off => busWord_eq_busFields .write .exp sz off data
  exact ⟨⟨hword 0x00#8, whenAttached_of hs⟩, ⟨hword 0x04#8, whenAttached_of hs⟩, ⟨hword 0x10#8, whenAttached_of hs⟩,
    ⟨hword 0x14#8, whenAttached_of hs⟩, ⟨hword 0x18#8, whenAttached_of hs⟩, ⟨hword 0x1C#8, whenAttached_of hs⟩⟩

/-- The mask that bit 7 forces has the bits 6 and 15 (R154). -/
theorem getLsbD_forcedPowerBits {k : Nat} (hk : k < 16) : (0x8040#16).getLsbD k = (k == 6 || k == 15) := by
  interval_cases k <;> rfl

theorem getLsbD_powerStoreValue (data : Half) {k : Nat} (hk : k < 16) :
    (powerStoreValue data).getLsbD k = (data.getLsbD k || (data.getLsbD 7 && (k == 6 || k == 15))) := by
  unfold powerStoreValue
  cases data.getLsbD 7 with
  | true => rw [if_pos rfl, BitVec.getLsbD_or, getLsbD_forcedPowerBits hk, Bool.true_and]
  | false => simp

/-- Settles O27, by the bits of the stored value. -/
theorem powerWriteForcesTwoBits : Obligations.PowerWriteForcesTwoBits := by
  intro sz data s hs
  exact ⟨busWord_eq_busFields .write .exp sz 0x0C#8 data, powerStoreValue data,
    fun k hk => getLsbD_powerStoreValue data hk, whenAttached_of hs⟩

/-! ## The recomputation as a loop over the changed bits (R165) -/

theorem mem_setBits {w : Nat} {x : BitVec w} {b : Fin w} : b ∈ setBits x ↔ x.getLsbD b.val = true := by simp [setBits]

theorem nodup_setBits {w : Nat} (x : BitVec w) : (setBits x).Nodup := (List.nodup_finRange w).filter _

theorem expoutLine_injective : Function.Injective expoutLine := fun b c h => by
  have hval : 32 + b.val = 32 + c.val := congrArg Fin.val h
  exact Fin.ext (by omega)

/-- A loop that skips the elements without `p` is the loop over those with it. -/
theorem forEach_ite_eq_filter {α : Type} (p : α → Bool) (f : α → State → Result) (xs : List α) (s : State) :
    forEach xs (fun x t => if p x then f x t else .next t) s = forEach (xs.filter p) f s := by
  induction xs generalizing s with
  | nil => rfl
  | cons x xs ih =>
    rw [forEach_cons, forEach_filter_cons, funext ih]

theorem andThen_congr {r : Result} {k k' : State → Result} (h : ∀ m, r = .next m → k m = k' m) :
    andThen r k = andThen r k' := by
  cases r with
  | next m => exact h m rfl
  | fault e => rfl
  | refused e => rfl

theorem running_of_idle {s : State} (h : LoopsIdle s) : s.running = ⟨false, false⟩ := by
  obtain ⟨hexp, hkm⟩ := h
  exact congr (congrArg Running.mk hexp) hkm

theorem withRunning_idle {s : State} (h : LoopsIdle s) : s.withRunning ⟨false, false⟩ = s := by
  rw [← running_of_idle h, State.withRunning_self]

theorem forEach_sigSet_frame {α : Type} {line : α → Line} {v : α → Bool} {xs : List α} {s t : State}
    (h : forEach xs (fun x => sigSet (line x) (v x)) s = .next t) : DispatchFrame s t :=
  forEach_keeps (DispatchFrame s) (fun _ _ _ hs ht => hs.trans (sigSet_frame ht)) (.refl s) h

/-- Between stimuli the recomputation makes the `SigSet`s of the changed visible bits, and stores the visible level into the
registers it met: no handler writes them. -/
theorem expRecompute_of_idle {s : State} (hidle : LoopsIdle s) {new : Word}
    (hnew : visibleLevel s.exp.gpioOut s.exp.gpioDir = new) :
    expRecompute s =
      andThen (forEach (setBits (s.exp.gpioPrev ^^^ new)) (fun b => sigSet (expoutLine b) (new.getLsbD b.val))
        (s.withRunning ⟨true, false⟩))
        fun t => .next ((t.withExp { s.exp with gpioPrev := new }).withRunning ⟨false, false⟩) := by
  subst hnew
  unfold expRecompute
  rw [running_of_idle hidle, if_neg Bool.false_ne_true]
  refine (congrArg (andThen · _) (forEach_ite_eq_filter _ _ _ _)).trans (andThen_congr fun m hm => ?_)
  have hframe := forEach_sigSet_frame hm
  rw [hframe.exp, hframe.running]
  rfl

section
variable {s : State} (hs : Attached s) (sz : Size) (data : Half)
include hs

theorem exec_expWrGpdir_of_attached :
    exec (.expWrGpdir sz data) s = expRecompute (s.withExp { s.exp with gpioDir := data.setWidth 32 }) :=
  whenAttached_of hs

theorem exec_expWrGpout_of_attached :
    exec (.expWrGpout sz data) s = expRecompute (s.withExp { s.exp with gpioOut := data.setWidth 32 }) :=
  whenAttached_of hs

end

/-- Settles O28: both writes store their register and recompute. -/
theorem gpioWritesDispatchChangedBits : Obligations.GpioWritesDispatchChangedBits := by
  intro sz data s hs hidle
  refine ⟨⟨busWord_eq_busFields .write .exp sz 0x20#8 data, ?_⟩, ⟨busWord_eq_busFields .write .exp sz 0x24#8 data, ?_⟩⟩
  · exact (exec_expWrGpdir_of_attached hs sz data).trans
      (expRecompute_of_idle (s := s.withExp { s.exp with gpioDir := data.setWidth 32 }) hidle rfl)
  · exact (exec_expWrGpout_of_attached hs sz data).trans
      (expRecompute_of_idle (s := s.withExp { s.exp with gpioOut := data.setWidth 32 }) hidle rfl)

/-- A store into the expander's registers and its recomputation, under quiet wiring (70_reset_and_hazards R282). -/
theorem expRecompute_withExp_completes {s : State} (hidle : LoopsIdle s) (hquiet : SenseQuiet s) (x : Expander) :
    ∃ t, expRecompute (s.withExp x) = .next t ∧
      DispatchFrame (s.withExp { x with gpioPrev := visibleLevel x.gpioOut x.gpioDir }) t := by
  obtain ⟨t, ht⟩ := expRecompute_completes (s := s.withExp x) hidle hquiet
  exact ⟨t, ht, (expRecompute_spec ht).2.1⟩

/-- Settles O29: a store of one register, then the recomputation. -/
theorem gpioWritesCompleteWithFrame : Obligations.GpioWritesCompleteWithFrame := by
  intro sz data s hs hidle hquiet
  rw [exec_expWrGpdir_of_attached hs, exec_expWrGpout_of_attached hs]
  exact ⟨expRecompute_withExp_completes hidle hquiet _, expRecompute_withExp_completes hidle hquiet _⟩

/-! ## EXPOUT lines with external handlers and no other driver (R166, R167; 70_reset_and_hazards R276) -/

/-- `SigSet`s of distinct lines with external handlers, each against its level: these lines end at their new levels, with no
edge pending, and no other line moves. -/
theorem lineAt_forEach_sigSet_external {α : Type} {line : α → Line} {v : α → Bool} {xs : List α} {s t : State}
    (hdistinct : (xs.map line).Nodup) (hext : ∀ x ∈ xs, ExternalAt s (line x) (!v x))
    (h : forEach xs (fun x => sigSet (line x) (v x)) s = .next t) :
    (∀ x ∈ xs, ExternalAt t (line x) (v x)) ∧ ∀ l, l ∉ xs.map line → lineAt t l = lineAt s l := by
  induction xs generalizing s with
  | nil => cases h; exact ⟨by simp, fun _ _ => rfl⟩
  | cons x xs ih =>
    obtain ⟨hx, hxs⟩ := List.nodup_cons.1 hdistinct
    obtain ⟨hxext, hxsext⟩ := List.forall_mem_cons.1 hext
    rw [forEach_cons, sigSet_externalAt hxext, andThen_next] at h
    have hne : ∀ l, l ≠ line x → lineAt (setLine s (line x) ⟨v x, v x, some .ext⟩) l = lineAt s l :=
      fun _ => lineAt_setLine_ne s _
    obtain ⟨hmoved, hkept⟩ := ih
      (s := (setLine s (line x) ⟨v x, v x, some .ext⟩).withTrace (s.trace ++ [.ext (line x) (v x)])) hxs
      (fun y hy => (hne _ fun e => hx (e ▸ List.mem_map_of_mem hy)).trans (hxsext y hy)) h
    refine ⟨List.forall_mem_cons.2 ⟨(hkept _ hx).trans (lineAt_setLine_self s _ _), hmoved⟩, fun l hl => ?_⟩
    obtain ⟨hlx, hlxs⟩ := not_or.1 (List.mem_cons.not.1 hl)
    exact (hkept l hlxs).trans (hne l hlx)

/-- A line is an EXPOUT line, or lies below them (10_state R13). -/
theorem line_lt_or_expout (l : Line) : l.val < 32 ∨ ∃ b, l = expoutLine b := by
  rcases Nat.lt_or_ge l.val 32 with h | h
  · exact .inl h
  · exact .inr ⟨⟨l.val - 32, by omega⟩, Fin.ext (by simp only [expoutLine]; omega)⟩

/-- From `s` to `t` only EXPOUT lines, the expander and the trace moved, and the lines stand at the previous visible level
again, each with its external handler. -/
structure ExpoutMoves (s t : State) : Prop where
  external : ExpoutExternal t
  rest : t = ((s.withSig t.sig).withExp t.exp).withTrace t.trace
  low : ∀ l : Line, l.val < 32 → lineAt t l = lineAt s l

namespace ExpoutMoves

variable {s t u : State}

theorem attached (h : ExpoutMoves s t) (hs : Attached s) : Attached t := by rw [h.rest]; exact hs

theorem idle (h : ExpoutMoves s t) (hs : LoopsIdle s) : LoopsIdle t := by rw [h.rest]; exact hs

theorem trans (h : ExpoutMoves s t) (k : ExpoutMoves t u) : ExpoutMoves s u where
  external := k.external
  rest := by
    have hu := k.rest
    rw [h.rest] at hu
    exact hu
  low l hl := (k.low l hl).trans (h.low l hl)

/-- What the expander holds settles where the lines stand. -/
theorem lineAt_eq (h : ExpoutMoves s t) (k : ExpoutMoves s u) (he : u.exp = t.exp) (l : Line) :
    lineAt u l = lineAt t l := by
  rcases line_lt_or_expout l with hl | ⟨b, rfl⟩
  · rw [k.low l hl, h.low l hl]
  · rw [k.external b, h.external b, he]

/-- Two such moves from one state to the same registers end in the same state but for the trace. -/
theorem eq_but_trace (h : ExpoutMoves s t) (k : ExpoutMoves s u) (he : u.exp = t.exp) : u.withTrace t.trace = t := by
  have hsig : u.sig = t.sig := Vector.ext fun i hi => h.lineAt_eq k he ⟨i, hi⟩
  rw [k.rest, hsig, he]
  exact h.rest.symm

end ExpoutMoves

/-- A changed bit is one whose previous level is not the new one. -/
theorem getLsbD_of_mem_setBits_xor {w : Nat} {x y : BitVec w} {b : Fin w} (h : b ∈ setBits (x ^^^ y)) :
    x.getLsbD b.val = !y.getLsbD b.val := by
  rw [mem_setBits, BitVec.getLsbD_xor] at h
  exact Bool.eq_not.2 (bne_iff_ne.1 h)

theorem getLsbD_of_not_mem_setBits_xor {w : Nat} {x y : BitVec w} {b : Fin w} (h : b ∉ setBits (x ^^^ y)) :
    x.getLsbD b.val = y.getLsbD b.val := by
  rw [mem_setBits, BitVec.getLsbD_xor] at h
  simpa using h

/-- From EXPOUT lines at the levels `prev` the `SigSet`s of the changed bits lead to lines at the levels `new`, one call for
each. -/
theorem forEach_expout_external {s : State} {prev new : Word}
    (hext : ∀ b, ExternalAt s (expoutLine b) (prev.getLsbD b.val)) :
    ∃ t, forEach (setBits (prev ^^^ new)) (fun b => sigSet (expoutLine b) (new.getLsbD b.val)) s = .next t ∧
      t = (s.withSig t.sig).withTrace t.trace ∧
      t.trace = s.trace ++ (setBits (prev ^^^ new)).map (fun b => .ext (expoutLine b) (new.getLsbD b.val)) ∧
      (∀ b, ExternalAt t (expoutLine b) (new.getLsbD b.val)) ∧ ∀ l : Line, l.val < 32 → lineAt t l = lineAt s l := by
  have hdistinct : ((setBits (prev ^^^ new)).map expoutLine).Nodup := (nodup_setBits _).map expoutLine_injective
  have hchanged : ∀ b ∈ setBits (prev ^^^ new), ExternalAt s (expoutLine b) (!new.getLsbD b.val) := fun b hb => by
    rw [← getLsbD_of_mem_setBits_xor hb]; exact hext b
  obtain ⟨sig, hloop⟩ := forEach_sigSet_external (v := fun b => new.getLsbD b.val) hdistinct hchanged
  obtain ⟨hmoved, hkept⟩ := lineAt_forEach_sigSet_external (v := fun b => new.getLsbD b.val) hdistinct hchanged hloop
  refine ⟨_, hloop, rfl, rfl, fun b => ?_, fun l hl => hkept l fun hmem => ?_⟩
  · by_cases hb : b ∈ setBits (prev ^^^ new)
    · exact hmoved b hb
    · rw [← getLsbD_of_not_mem_setBits_xor hb]
      refine (hkept _ fun hmem => hb ?_).trans (hext b)
      exact (List.mem_map_of_injective expoutLine_injective).1 hmem
  · obtain ⟨b, -, rfl⟩ := List.mem_map.1 hmem
    simp only [expoutLine] at hl
    omega

/-- A store into the expander's registers that leaves the previous visible level, and its recomputation. -/
theorem expRecompute_external {s : State} (hidle : LoopsIdle s) (hext : ExpoutExternal s) {x : Expander} {new : Word}
    (hprev : x.gpioPrev = s.exp.gpioPrev) (hnew : visibleLevel x.gpioOut x.gpioDir = new) :
    ∃ t, expRecompute (s.withExp x) = .next t ∧ t.exp = { x with gpioPrev := new } ∧ ExpoutMoves s t ∧
      t.trace = s.trace ++ (setBits (s.exp.gpioPrev ^^^ new)).map (fun b => .ext (expoutLine b) (new.getLsbD b.val)) := by
  obtain ⟨m, hloop, hm, htrace, hlines, hlow⟩ := forEach_expout_external (new := new)
    (s := (s.withExp x).withRunning ⟨true, false⟩) hext
  have hrun := expRecompute_of_idle (s := s.withExp x) hidle hnew
  rw [State.withExp_exp, hprev, hloop, andThen_next] at hrun
  refine ⟨_, hrun, rfl, ⟨hlines, ?_, hlow⟩, htrace⟩
  conv_rhs => rw [← withRunning_idle hidle]
  exact congrArg (fun u => (u.withExp { x with gpioPrev := new }).withRunning ⟨false, false⟩) hm

section
variable {s : State} (hs : Attached s) (hidle : LoopsIdle s) (hext : ExpoutExternal s) (sz : Size) (data : Half)
include hs hidle hext

theorem exec_expWrGpdir_external :
    let new := s.exp.gpioOut &&& data.setWidth 32
    ∃ t, exec (.expWrGpdir sz data) s = .next t ∧
      t.exp = { s.exp with gpioDir := data.setWidth 32, gpioPrev := new } ∧ ExpoutMoves s t ∧
      t.trace = s.trace ++ (setBits (s.exp.gpioPrev ^^^ new)).map fun b => .ext (expoutLine b) (new.getLsbD b.val) := by
  rw [exec_expWrGpdir_of_attached hs]
  exact expRecompute_external (x := { s.exp with gpioDir := data.setWidth 32 }) hidle hext rfl rfl

theorem exec_expWrGpout_external :
    let new := data.setWidth 32 &&& s.exp.gpioDir
    ∃ t, exec (.expWrGpout sz data) s = .next t ∧
      t.exp = { s.exp with gpioOut := data.setWidth 32, gpioPrev := new } ∧ ExpoutMoves s t ∧
      t.trace = s.trace ++ (setBits (s.exp.gpioPrev ^^^ new)).map fun b => .ext (expoutLine b) (new.getLsbD b.val) := by
  rw [exec_expWrGpout_of_attached hs]
  exact expRecompute_external (x := { s.exp with gpioOut := data.setWidth 32 }) hidle hext rfl rfl

end

/-- Settles O30: the recomputation of each write under the wiring discipline. -/
theorem gpioWritesDriveExternalLinesLowToHigh : Obligations.GpioWritesDriveExternalLinesLowToHigh := by
  intro sz data s hs hidle hext
  obtain ⟨a, ha, haexp, hamoves, hatrace⟩ := exec_expWrGpdir_external hs hidle hext sz data
  obtain ⟨b, hb, hbexp, hbmoves, hbtrace⟩ := exec_expWrGpout_external hs hidle hext sz data
  exact ⟨⟨a, ha, haexp, hamoves.external, hatrace, hamoves.rest, hamoves.low⟩,
    ⟨b, hb, hbexp, hbmoves.external, hbtrace, hbmoves.rest, hbmoves.low⟩⟩

/-- Settles O31: both orders end with the same registers, which settle where the lines stand. -/
theorem gpioFinalStateIsOrderIndependent : Obligations.GpioFinalStateIsOrderIndependent := by
  intro sz sz' d v s hs hidle hext
  obtain ⟨a, ha, haexp, hsa, -⟩ := exec_expWrGpdir_external hs hidle hext sz d
  obtain ⟨t, ht, htexp, hat, -⟩ := exec_expWrGpout_external (hsa.attached hs) (hsa.idle hidle) hsa.external sz' v
  obtain ⟨b, hb, hbexp, hsb, -⟩ := exec_expWrGpout_external hs hidle hext sz' v
  obtain ⟨u, hu, huexp, hbu, -⟩ := exec_expWrGpdir_external (hsb.attached hs) (hsb.idle hidle) hsb.external sz d
  rw [haexp] at htexp
  rw [hbexp] at huexp
  have hprev : t.exp.gpioPrev = v.setWidth 32 &&& d.setWidth 32 := by rw [htexp]
  refine ⟨a, t, b, u, ha, ht, hb, hu, (hsa.trans hat).eq_but_trace (hsb.trans hbu) (huexp.trans htexp.symm), hprev,
    fun k => ?_⟩
  rw [hat.external k, hprev, BitVec.setWidth_and]

end Sys2Proof.Machine

/-! The serial demultiplexer (44_serial_demux): the writes to the selected chips as one stretch of the trace, and the reads of
the selected chips as answers taken from the front of the environment's list. -/

namespace Sys2Proof.Machine

/-! ## The write (R182) -/

theorem encode_sspWr_eq_ofNat (b : Byte) : encode (.sspWr b) = BitVec.ofNat 32 (0x80000000 + b.toNat) := by
  apply BitVec.eq_of_toNat_eq
  rw [encode, append_toNat, BitVec.toNat_ofNat, BitVec.toNat_ofNat]
  omega

/-- A loop that only records one event for each element records them in the order of the list. -/
theorem forEach_emit {α : Type} (e : α → Event) (xs : List α) (s : State) :
    forEach xs (fun x t => .next (emit t (e x))) s = .next (s.withTrace (s.trace ++ xs.map e)) := by
  induction xs generalizing s with
  | nil => simp
  | cons x xs ih => rw [forEach_cons, andThen_next, ih]; simp [emit]

/-- Settles O37: the word by its fields, the loop over the selected chips as the events it records. -/
theorem serialWriteReachesEverySelectedChip : Obligations.SerialWriteReachesEverySelectedChip := fun b s hs =>
  ⟨encode_sspWr_eq_ofNat b, (whenAttached_of hs).trans (forEach_emit _ (selectedChips s) s)⟩

/-! ## The answers of the chips (R180, R183) -/

/-- The chip answers `bs` turn the environment `env` into `env'`: as far as the list of answers to come goes they are its
front, which leaves it, and nothing else changes but the counter of free values. -/
def ChipsAnswer (bs : List Byte) (env env' : Env) : Prop :=
  env.chipBytes.take bs.length <+: bs ∧ ∃ n, env' = { env with chipBytes := env.chipBytes.drop bs.length, draws := n }

theorem ChipsAnswer.nil (env : Env) : ChipsAnswer [] env env := ⟨List.prefix_rfl, env.draws, rfl⟩

theorem ChipsAnswer.cons {b : Byte} {bs : List Byte} {env env1 env2 : Env} (h : ChipsAnswer [b] env env1)
    (k : ChipsAnswer bs env1 env2) : ChipsAnswer (b :: bs) env env2 := by
  obtain ⟨hfirst, _, rfl⟩ := h
  obtain ⟨hrest, n, rfl⟩ := k
  refine ⟨?_, n, by simp [Nat.add_comm]⟩
  cases hl : env.chipBytes with
  | nil => simp
  | cons c cs => simp_all

theorem ChipsAnswer.withDraws {bs : List Byte} {env env' : Env} (h : ChipsAnswer bs env env') (n : Nat) :
    ChipsAnswer bs env { env' with draws := n } := by
  obtain ⟨hfront, _, rfl⟩ := h
  exact ⟨hfront, n, rfl⟩

theorem ChipsAnswer.chipBytes {bs : List Byte} {env env' : Env} (h : ChipsAnswer bs env env') :
    env'.chipBytes = env.chipBytes.drop bs.length := by
  obtain ⟨-, _, rfl⟩ := h; rfl

theorem ChipsAnswer.others {bs : List Byte} {env env' : Env} (h : ChipsAnswer bs env env') :
    env'.flashBytes = env.flashBytes ∧ env'.flashReady = env.flashReady ∧ env'.handles = env.handles := by
  obtain ⟨-, _, rfl⟩ := h; exact ⟨rfl, rfl, rfl⟩

theorem chipRead_cfg (i : Fin 3) (s : State) : (chipRead i s).2.cfg = s.cfg := by
  obtain ⟨env, h⟩ := chipRead_spec i s
  rw [h]; rfl

theorem chipRead_of_unfitted {i : Fin 3} {s : State} (h : s.cfg.chipFitted.get i = false) :
    chipRead i s = (0x00#8, emit s (.chipRead i 0x00#8)) := by
  simp [chipRead, h]

/-- A fitted chip's answer is the first one to come, or a free value. -/
theorem chipRead_answer_of_fitted {i : Fin 3} {s : State} (h : s.cfg.chipFitted.get i = true) :
    ChipsAnswer [(chipRead i s).1] s.env (chipRead i s).2.env := by
  rw [chipRead, if_pos h]
  cases hl : s.env.chipBytes with
  | nil => exact ⟨by simp [hl], s.env.draws + 1, by simp [hl, emit, advanceDraws]⟩
  | cons b rest => exact ⟨by simp [hl], s.env.draws, by simp [hl, emit]⟩

/-! ## The reads of a list of chips -/

/-- Of the bytes `bs` read from the chips `is`, in order, those that come from fitted chips. -/
def fittedBytes (fitted : Vector Bool 3) (is : List (Fin 3)) (bs : List Byte) : List Byte :=
  ((is.zip bs).filter fun p => fitted.get p.1).map fun p => p.2

theorem fittedBytes_cons_of_fitted {fitted : Vector Bool 3} {i : Fin 3} (h : fitted.get i = true) (is : List (Fin 3))
    (b : Byte) (bs : List Byte) : fittedBytes fitted (i :: is) (b :: bs) = b :: fittedBytes fitted is bs := by
  simp [fittedBytes, h]

theorem fittedBytes_cons_of_unfitted {fitted : Vector Bool 3} {i : Fin 3} (h : fitted.get i = false) (is : List (Fin 3))
    (b : Byte) (bs : List Byte) : fittedBytes fitted (i :: is) (b :: bs) = fittedBytes fitted is bs := by
  simp [fittedBytes, h]

theorem length_fittedBytes (fitted : Vector Bool 3) {is : List (Fin 3)} {bs : List Byte} (h : bs.length = is.length) :
    (fittedBytes fitted is bs).length = (is.filter fun i => fitted.get i).length := by
  conv_rhs => rw [← List.map_fst_zip (l₁ := is) (l₂ := bs) h.ge, List.filter_map, List.length_map]
  exact List.length_map _

theorem chipReads_cons (i : Fin 3) (is : List (Fin 3)) (s : State) :
    chipReads (i :: is) s =
      ((chipRead i s).1 :: (chipReads is (chipRead i s).2).1, (chipReads is (chipRead i s).2).2) := rfl

/-- Only the fitted chips take answers from the environment, one each in the order of the reads. -/
theorem chipReads_answer (is : List (Fin 3)) (s : State) :
    ChipsAnswer (fittedBytes s.cfg.chipFitted is (chipReads is s).1) s.env (chipReads is s).2.env := by
  induction is generalizing s with
  | nil => exact .nil s.env
  | cons i is ih =>
    have hrest := ih (chipRead i s).2
    rw [chipRead_cfg] at hrest
    rw [chipReads_cons]
    cases h : s.cfg.chipFitted.get i with
    | true => rw [fittedBytes_cons_of_fitted h]; exact (chipRead_answer_of_fitted h).cons hrest
    | false =>
      rw [fittedBytes_cons_of_unfitted h]
      rw [chipRead_of_unfitted h] at hrest ⊢
      exact hrest

theorem chipReads_of_unfitted (is : List (Fin 3)) (s : State) :
    ∀ p ∈ is.zip (chipReads is s).1, s.cfg.chipFitted.get p.1 = false → p.2 = 0x00#8 := by
  induction is generalizing s with
  | nil => simp
  | cons i is ih =>
    rw [chipReads_cons, List.zip_cons_cons, List.forall_mem_cons]
    refine ⟨fun h => by rw [chipRead_of_unfitted h], ?_⟩
    rw [← chipRead_cfg i s]
    exact ih (chipRead i s).2

/-! ## The value returned (R183, 93 U3) -/

theorem mergeReads_first {s : State} (h : s.cfg.demuxMerge = .first) (b : Byte) (rest : List Byte) :
    (mergeReads (b :: rest) s).1 = b := by
  cases rest with
  | nil => rfl
  | cons c rest => simp [mergeReads, h]

theorem exec_sspRd_of_chipReads {s t : State} {bs : List Byte} (hs : Attached s)
    (h : chipReads (selectedChips s) s = (bs, t)) :
    exec .sspRd s = .next (emit (mergeReads bs t).2 (.ret (.byte (mergeReads bs t).1))) := by
  refine (whenAttached_of hs).trans ?_
  rw [h]; rfl

/-- Settles O38: the reads of the selected chips, then the merge, which takes at most one free value. -/
theorem serialReadReadsEverySelectedChip : Obligations.SerialReadReadsEverySelectedChip := by
  intro s hs
  obtain ⟨env, hlen, hstate⟩ := chipReads_spec (selectedChips s) s
  have hanswer := chipReads_answer (selectedChips s) s
  have hzero := chipReads_of_unfitted (selectedChips s) s
  cases hreads : chipReads (selectedChips s) s with | mk bs t
  simp only [hreads] at hlen hstate hanswer hzero
  obtain ⟨n, hmerge⟩ := mergeReads_spec bs t
  have hexec := exec_sspRd_of_chipReads hs hreads
  rw [hmerge] at hexec
  subst hstate
  have hleft := hanswer.withDraws n
  refine ⟨rfl, bs, { env with draws := n }, _, hlen, hexec, hzero, hleft.1, length_fittedBytes _ hlen, hleft.chipBytes,
    ?none, ?one, ?first, hleft.others⟩
  case none => rintro rfl; rfl
  case one => rintro b rfl; rfl
  case first =>
    rintro b rest rfl hfirst
    exact mergeReads_first (s := (s.withEnv env).withTrace _) hfirst b rest

end Sys2Proof.Machine

/-! The key matrix (45_key_matrix): the sense recomputation as a loop over the changed rows alone (R192), which under the
wiring discipline of 70_reset_and_hazards R276 moves the SENSE lines of these rows and nothing else; the strobe changes and
the applied keys that lead to it. -/

namespace Sys2Proof.Machine

/-! ## The recomputation as a loop over the changed rows (R192) -/

/-- The rows whose sense bit is another one than at the previous recomputation, ascending. -/
def changedRows (km : KeyMatrix) : List (Fin 7) := (List.finRange 7).filter (rowChanged km)

theorem mem_changedRows {km : KeyMatrix} {r : Fin 7} : r ∈ changedRows km ↔ rowChanged km r = true := by
  simp [changedRows]

theorem sense_of_not_mem_changedRows {km : KeyMatrix} {r : Fin 7} (h : r ∉ changedRows km) :
    km.sense.getLsbD r.val = sensed km.pressed km.strobe r := by
  rw [mem_changedRows, Bool.not_eq_true] at h
  exact (bne_eq_false_iff_eq.1 h).symm

theorem nodup_map_senseLine_changedRows (km : KeyMatrix) : ((changedRows km).map senseLine).Nodup :=
  ((List.nodup_finRange 7).filter _).map senseLine_injective

/-- Under quiet wiring the recomputation makes the `SigSet`s of the changed rows, and stores the sense bits of the matrix it
met: no handler it calls writes the matrix. -/
theorem kmRecompute_of_quiet {s : State} (hidle : s.running.km = false) (hquiet : SenseQuiet s) :
    kmRecompute s =
      andThen (forEach (changedRows s.km) (setSenseRow s.km) (s.withRunning { s.running with km := true })) fun t =>
        .next ((t.withKm { s.km with sense := senseNow s }).withRunning s.running) := by
  obtain ⟨m, hloop, hsets, hkm⟩ := forEach_senseRow_of_quiet (km := s.km) (xs := List.finRange 7)
    (s := s.withRunning { s.running with km := true }) rfl fun q _ _ => hquiet q
  have hrun : { m.running with km := false } = s.running := by
    rw [(forEach_sigSet_frame hsets).running, ← hidle]; rfl
  have hnow : senseNow m = senseNow s := senseNow_congr (by rw [hkm]) (by rw [hkm])
  rw [kmRecompute_of_idle hidle, hloop, changedRows, hsets, andThen_next, andThen_next, hrun, hnow, hkm]

/-- Settles O39: the stored bits are the present sense bits of all seven rows. -/
theorem senseRecomputationVisitsChangedRows : Obligations.SenseRecomputationVisitsChangedRows := fun s hidle hquiet =>
  ⟨senseNow s, senseNow_getLsbD s, kmRecompute_of_quiet hidle hquiet⟩

/-! ## SENSE lines with external handlers and no other driver (R192; 70_reset_and_hazards R276) -/

theorem SenseExternal.quiet {s : State} (h : SenseExternal s) : SenseQuiet s := fun r => by
  rw [show lineAt s (senseLine r) = _ from h r]; rfl

/-- A line with a strobe handler is none of the SENSE lines. -/
theorem SenseExternal.ne_strobeLine {s : State} (h : SenseExternal s) {l : Line} {c : Fin 11}
    (hl : (lineAt s l).handler = some (.strobe c)) (r : Fin 7) : senseLine r ≠ l := by
  rintro rfl
  have hquiet := h.quiet r
  rw [hl] at hquiet
  cases hquiet

/-- A line is a SENSE line, or lies beside them (10_state R13). -/
theorem line_outside_or_sense (l : Line) : (l.val < 11 ∨ 18 ≤ l.val) ∨ ∃ r, l = senseLine r := by
  by_cases h : l.val < 11 ∨ 18 ≤ l.val
  · exact .inl h
  · exact .inr ⟨⟨l.val - 11, by omega⟩, Fin.ext (by simp only [senseLine]; omega)⟩

theorem senseLine_inside (r : Fin 7) : ¬((senseLine r).val < 11 ∨ 18 ≤ (senseLine r).val) := by
  simp only [senseLine]
  omega

/-- From SENSE lines at the stored sense bits the `SigSet`s of the changed rows lead to lines at the present ones, one call
for each. -/
theorem forEach_setSenseRow_external {km : KeyMatrix} {s : State}
    (hext : ∀ r, ExternalAt s (senseLine r) (km.sense.getLsbD r.val)) :
    ∃ t, forEach (changedRows km) (setSenseRow km) s = .next t ∧
      t = (s.withSig t.sig).withTrace t.trace ∧
      t.trace = s.trace ++ (changedRows km).map (fun r => .ext (senseLine r) (sensed km.pressed km.strobe r)) ∧
      (∀ r, ExternalAt t (senseLine r) (sensed km.pressed km.strobe r)) ∧
      ∀ l : Line, l.val < 11 ∨ 18 ≤ l.val → lineAt t l = lineAt s l := by
  have hdistinct := nodup_map_senseLine_changedRows km
  have hchanged : ∀ r ∈ changedRows km, ExternalAt s (senseLine r) (!sensed km.pressed km.strobe r) := fun r hr => by
    rw [← sense_of_rowChanged (mem_changedRows.1 hr)]; exact hext r
  obtain ⟨sig, hloop⟩ := forEach_sigSet_external hdistinct hchanged
  obtain ⟨hmoved, hkept⟩ := lineAt_forEach_sigSet_external hdistinct hchanged hloop
  refine ⟨_, hloop, rfl, rfl, fun r => ?_, fun l hl => hkept l fun hmem => ?_⟩
  · by_cases hr : r ∈ changedRows km
    · exact hmoved r hr
    · rw [← sense_of_not_mem_changedRows hr]
      refine (hkept _ fun hmem => hr ?_).trans (hext r)
      exact (List.mem_map_of_injective senseLine_injective).1 hmem
  · obtain ⟨r, -, rfl⟩ := List.mem_map.1 hmem
    exact senseLine_inside r hl

/-- From `s` to `t` the sense bits were brought up to the matrix of `t`, and the environment was told of the changed rows:
only SENSE lines, the matrix and the trace moved. -/
structure SenseReported (s t : State) : Prop where
  sense : ∀ r : Fin 7, t.km.sense.getLsbD r.val = sensed t.km.pressed t.km.strobe r
  external : SenseExternal t
  outside : ∀ m : Line, m.val < 11 ∨ 18 ≤ m.val → lineAt t m = lineAt s m
  trace : t.trace = s.trace ++ ((List.finRange 7).filter fun r =>
    sensed t.km.pressed t.km.strobe r != s.km.sense.getLsbD r.val).map
      fun r => .ext (senseLine r) (sensed t.km.pressed t.km.strobe r)
  rest : t = ((s.withSig t.sig).withKm t.km).withTrace t.trace

theorem kmRecompute_external {s : State} (hidle : LoopsIdle s) (hext : SenseExternal s) :
    ∃ t, kmRecompute s = .next t ∧ t.km.pressed = s.km.pressed ∧ t.km.strobe = s.km.strobe ∧ SenseReported s t := by
  obtain ⟨m, hloop, hm, htrace, hlines, houtside⟩ := forEach_setSenseRow_external (km := s.km)
    (s := s.withRunning { s.running with km := true }) hext
  have hrun := kmRecompute_of_quiet hidle.2 hext.quiet
  rw [hloop, andThen_next] at hrun
  refine ⟨_, hrun, rfl, rfl, ⟨senseNow_getLsbD s, fun r => ?_, houtside, htrace, ?_⟩⟩
  · show lineAt m (senseLine r) = ⟨(senseNow s).getLsbD r.val, (senseNow s).getLsbD r.val, some .ext⟩
    rw [senseNow_getLsbD]
    exact hlines r
  · exact congrArg (fun u => (u.withKm { s.km with sense := senseNow s }).withRunning s.running) hm

/-! ## A change of a strobe line (R191) -/

/-- The block as the recomputation meets it after an edge of the line `l` of column `c`: the edge consumed, the column's
bit recorded. -/
def strobeRecorded (l : Line) (c : Fin 11) (v : Bool) (s : State) : State :=
  (setLine s l ⟨v, v, some (.strobe c)⟩).withKm { s.km with strobe := putBit s.km.strobe c.val v }

section
variable {s : State} {l : Line} {c : Fin 11} {v : Bool} (hl : (lineAt s l).handler = some (.strobe c))
include hl

theorem sigSet_strobe_of_idle (hidle : LoopsIdle s) (hv : v ≠ (lineAt s l).disp) :
    sigSet l v s = kmRecompute (strobeRecorded l c v s) :=
  (sigSetWith_strobe hl hv).trans (hStrobe_of_idle (s := setLine s l ⟨v, v, some (.strobe c)⟩) hidle.2 c v)

theorem senseExternal_strobeRecorded (hext : SenseExternal s) : SenseExternal (strobeRecorded l c v s) := fun r =>
  (lineAt_setLine_ne s _ (hext.ne_strobeLine hl r)).trans (hext r)

theorem SenseExternal.strobeLine_outside (hext : SenseExternal s) : l.val < 11 ∨ 18 ≤ l.val :=
  (line_outside_or_sense l).resolve_right fun ⟨r, hr⟩ => hext.ne_strobeLine hl r hr.symm

end

/-- Settles O40: the strobe handler records the column and recomputes, and the recomputation stays off the strobe's line. -/
theorem strobeChangeReportsChangedRows : Obligations.StrobeChangeReportsChangedRows := by
  intro l c v s hs hidle hext hl hv
  obtain ⟨t, hrun, hpressed, hstrobe, ht⟩ :=
    kmRecompute_external (s := strobeRecorded l c v s) hidle (senseExternal_strobeRecorded hl hext)
  have hline : lineAt t l = ⟨v, v, some (.strobe c)⟩ :=
    (ht.outside l (hext.strobeLine_outside hl)).trans (lineAt_setLine_self s l _)
  refine ⟨t, ?_, fun k hk => ?_, hpressed, ht.sense, ht.external, hline, fun m hm hout => ?_, ht.trace, ht.rest⟩
  · rw [exec_sigSet_of_attached hs, sigSet_strobe_of_idle hl hidle hv, hrun]
  · rw [hstrobe]; exact putBit_getLsbD _ _ _ hk
  · exact (ht.outside m hout).trans (lineAt_setLine_ne s _ hm)

/-! ## The tick of an ordinary key (R193, R194; 46_key_synth R220) -/

/-- The queue without its oldest event. -/
def dequeued (q : Queue) : Queue := { q with head := q.head + 1#4, len := q.len - 1#5 }

section
variable {s : State} {code : Byte} {rest : List Byte} (h : pending s.queue = code :: rest)
include h

theorem len_ne_zero_of_pending : s.queue.len ≠ 0#5 := fun hlen => by
  have hcount := pending_length s.queue
  rw [h, hlen] at hcount
  cases hcount

/-- The oldest event is the one at the head, and the others stay. -/
theorem dequeue_of_pending : s.queue.buf.get s.queue.head.toFin = code ∧ pending (dequeued s.queue) = rest :=
  List.cons.inj ((dequeue_pending s.queue (len_ne_zero_of_pending h)).symm.trans h)

theorem exec_tick_of_pending (hs : Attached s) :
    exec .tick s = keyApply code (s.withQueue (dequeued s.queue)) := by
  obtain ⟨hcode, -⟩ := dequeue_of_pending h
  rw [← hcode]
  exact (whenAttached_of hs).trans (if_neg (len_ne_zero_of_pending h))

end

theorem keyEntry_eventKey (cfg : Config) (code : Byte) :
    keyEntry cfg (eventKey code) = cfg.keymap.getD (code.extractLsb' 0 7).toNat .unmapped := by
  rw [keyEntry, eventKey, BitVec.setWidth_eq_extractLsb' (by decide)]

/-- The pressed grid with the cell of an event set or cleared. -/
def pressedAfter (pressed : Vector (BitVec 11) 8) (row : Fin 7) (col : Fin 11) (up : Bool) : Vector (BitVec 11) 8 :=
  pressed.set row.val (putBit (pressed.get (row.castLE (by omega))) col.val (!up)) (by omega)

theorem pressedAfter_getLsbD (pressed : Vector (BitVec 11) 8) (row : Fin 7) (col : Fin 11) (up : Bool) (r : Fin 8)
    {k : Nat} (hk : k < 11) :
    ((pressedAfter pressed row col up).get r).getLsbD k =
      if r.val = row.val ∧ k = col.val then !up else (pressed.get r).getLsbD k := by
  by_cases hr : row.val = r.val
  · have hcast : row.castLE (by omega) = r := Fin.ext hr
    have hget : (pressedAfter pressed row col up).get r = putBit (pressed.get r) col.val (!up) := by
      simp [pressedAfter, Vector.get_eq_getElem, hr]
    simp only [hget, putBit_getLsbD _ _ _ hk, hr, true_and]
  · have hget : (pressedAfter pressed row col up).get r = pressed.get r := by
      simp [pressedAfter, Vector.get_eq_getElem, Vector.getElem_set_ne, hr]
    rw [hget, if_neg fun hrc => hr hrc.1.symm]

/-- An event of an ordinary key stores its cell and recomputes. -/
theorem keyApply_cell {s : State} {code : Byte} {row : Fin 7} {col : Fin 11} (hidle : s.running.km = false)
    (h : keyEntry s.cfg (eventKey code) = .cell row.val col.val) :
    keyApply code s =
      kmRecompute (s.withKm { s.km with pressed := pressedAfter s.km.pressed row col (eventUp code) }) := by
  have hcell : keyApply code s = keyCell row col (eventUp code) s := by
    unfold keyApply
    rw [h]
    exact dif_pos ⟨row.isLt, col.isLt⟩
  rw [hcell]
  exact if_neg (by simp [hidle])

/-- Settles O44: the oldest event leaves the queue, its cell is stored, and the recomputation reports the changed rows. -/
theorem appliedKeyReportsChangedRows : Obligations.AppliedKeyReportsChangedRows := by
  intro s code rest row col hs hidle hext hq hentry
  have happly := keyApply_cell (s := s.withQueue (dequeued s.queue)) (code := code) hidle.2
    ((keyEntry_eventKey s.cfg code).trans hentry)
  obtain ⟨t, hrun, hpressed, hstrobe, ht⟩ := kmRecompute_external
    (s := (s.withQueue (dequeued s.queue)).withKm
      { s.km with pressed := pressedAfter s.km.pressed row col (eventUp code) }) hidle hext
  have hqueue : t.queue = dequeued s.queue := by rw [ht.rest]; rfl
  obtain ⟨-, hrest⟩ := dequeue_of_pending hq
  refine ⟨t, ?_, ?_, fun r k hk => ?_, hstrobe, ht.sense, ht.external, ht.outside, ht.trace, ?_⟩
  · rw [exec_tick_of_pending hq hs, happly]; exact hrun
  · rw [hqueue, hrest]
  · rw [hpressed]; exact pressedAfter_getLsbD _ row col _ r hk
  · rw [hqueue]; exact ht.rest

end Sys2Proof.Machine

/-! The key synthesizer (46_key_synth): the tick that applies the oldest event, by the entry of its keycode (R220;
45_key_matrix R193 to R196), and a `KEY` stimulus as one list of codes that it enqueues and the modifiers that it leaves
(R210 to R218). -/

namespace Sys2Proof.Machine

/-! ## Applying an event, by the entry of its keycode (45_key_matrix R193 to R196) -/

/-- The entries that `ATTACH` admits (30_encoding R75). -/
theorem keyEntryOk_cases {e : KeyEntry} (h : keyEntryOk e = true) :
    e = .unmapped ∨ (∃ (row : Fin 7) (col : Fin 11), e = .cell row.val col.val) ∨ ∃ col : Fin 5, e = .cell 7 col.val := by
  cases e with
  | unmapped => exact .inl rfl
  | cell row col =>
    simp only [keyEntryOk, Bool.or_eq_true, Bool.and_eq_true, decide_eq_true_eq, beq_iff_eq] at h
    rcases h with ⟨hrow, hcol⟩ | ⟨rfl, hcol⟩
    · exact .inr (.inl ⟨⟨row, hrow⟩, ⟨col, hcol⟩, rfl⟩)
    · exact .inr (.inr ⟨⟨col, hcol⟩, rfl⟩)

theorem keymapOk_of_configProblem {c : Config} (h : configProblem c = none) : keymapOk c = true := by
  by_contra hkeymap
  rw [Bool.not_eq_true] at hkeymap
  unfold configProblem at h
  rw [hkeymap] at h
  split at h <;> cases h

/-- A keycode past the end of `KEYMAP` is unmapped, so no length is needed (log entry 25). -/
theorem keyEntryOk_keyEntry {c : Config} (h : keymapOk c = true) (kc : BitVec 7) : keyEntryOk (keyEntry c kc) = true := by
  obtain ⟨-, hall⟩ := Bool.and_eq_true_iff.1 h
  rw [keyEntry, List.getD_eq_getElem?_getD]
  cases hget : c.keymap[kc.toNat]? with
  | none => rfl
  | some e => exact List.all_eq_true.1 hall e (List.mem_of_getElem? hget)

section
variable {s : State} {code : Byte}

theorem keyApply_unmapped (h : keyEntry s.cfg (eventKey code) = .unmapped) : keyApply code s = .next s := by
  rw [keyApply, h]

/-- An event of a special key drives its line (R195). -/
theorem keyApply_special {col : Fin 5} (h : keyEntry s.cfg (eventKey code) = .cell 7 col.val) :
    keyApply code s = sigSet (specialLine col) ((!code.getLsbD 7) ^^ s.cfg.invert.getD col.val false) s := by
  unfold keyApply
  rw [h]
  exact (dif_neg (by simp)).trans (dif_pos ⟨rfl, col.isLt⟩)

/-- Under quiet SENSE wiring an event with an admitted entry is applied to completion; only a special line could move the
strobe state. -/
theorem keyApply_completes (hentry : keyEntryOk (keyEntry s.cfg (eventKey code)) = true)
    (hidle : s.running.km = false) (hquiet : SenseQuiet s) :
    ∃ t, keyApply code s = .next t ∧
      ((∀ (col : Fin 5) (c : Fin 11), (lineAt s (specialLine col)).handler ≠ some (.strobe c)) →
        t.km.strobe = s.km.strobe) := by
  rcases keyEntryOk_cases hentry with hun | ⟨row, col, hcell⟩ | ⟨col, hspecial⟩
  · exact ⟨s, keyApply_unmapped hun, fun _ => rfl⟩
  · obtain ⟨t, ht⟩ := kmRecompute_completes
      (s := s.withKm { s.km with pressed := pressedAfter s.km.pressed row col (eventUp code) }) hidle hquiet
    obtain ⟨-, -, hkm⟩ := kmRecompute_spec ht
    exact ⟨t, (keyApply_cell hidle hcell).trans ht, fun _ => by rw [hkm]; rfl⟩
  · obtain ⟨t, ht⟩ := sigSet_completes (specialLine col)
      ((!code.getLsbD 7) ^^ s.cfg.invert.getD col.val false) hidle hquiet
    refine ⟨t, (keyApply_special hspecial).trans ht, fun hfree => ?_⟩
    have hline : isStrobe (lineAt s (specialLine col)).handler = false := by
      rcases hh : (lineAt s (specialLine col)).handler with _ | (c | i | _)
      · rfl
      · exact absurd hh (hfree col c)
      · rfl
      · rfl
    obtain ⟨u, hu, -, hkm⟩ := sigSetWith_completes _ hline
    rw [← Host.Outcome.next.inj ((hu hStrobe).symm.trans ht), hkm]

end

/-! ## The tick (R220) -/

/-- In Idle a tick does nothing (R219). -/
theorem exec_tick_of_idle {s : State} (hs : Attached s) (h : pending s.queue = []) : exec .tick s = .next s := by
  have hlen : s.queue.len = 0#5 := BitVec.eq_of_toNat_eq ((pending_length s.queue).symm.trans (congrArg List.length h))
  exact (whenAttached_of hs).trans (if_pos hlen)

/-- Settles O42: the dequeued code is applied by its entry, case by case. -/
theorem tickAppliesTheOldestEvent : Obligations.TickAppliesTheOldestEvent := by
  refine ⟨rfl, fun s hs => ⟨exec_tick_of_idle hs, fun code rest hq => ?_⟩⟩
  obtain ⟨-, hrest⟩ := dequeue_of_pending hq
  rw [exec_tick_of_pending hq hs, ← keyEntry_eventKey]
  refine ⟨dequeued s.queue, hrest, fun hun => keyApply_unmapped hun, fun col hspecial => ?_, fun row col hcell hidle => ?_⟩
  · rw [exec_sigSet_of_attached (s := s.withQueue (dequeued s.queue)) hs]
    exact keyApply_special (s := s.withQueue (dequeued s.queue)) hspecial
  · exact ⟨_, fun k hk => putBit_getLsbD _ _ _ hk,
      keyApply_cell (s := s.withQueue (dequeued s.queue)) (code := code) hidle hcell⟩

/-- Settles O43: a session's entries are admitted, so the oldest event is applied to completion. -/
theorem tickCompletesWithFrame : Obligations.TickCompletesWithFrame := by
  intro s hs hsession hidle hquiet
  cases hq : pending s.queue with
  | nil => exact ⟨s, exec_tick_of_idle hs hq, hq, .refl s, fun _ => rfl⟩
  | cons code rest =>
    obtain ⟨hconfig, -⟩ := hsession hs
    obtain ⟨-, hkm⟩ := hidle
    obtain ⟨-, hrest⟩ := dequeue_of_pending hq
    obtain ⟨t, ht, hstrobe⟩ := keyApply_completes (s := s.withQueue (dequeued s.queue)) (code := code)
      (keyEntryOk_keyEntry (keymapOk_of_configProblem hconfig) _) hkm hquiet
    obtain ⟨hframe, -⟩ := keyApply_frame ht
    have hqueue : t.queue = dequeued s.queue := hframe.queue
    refine ⟨t, (exec_tick_of_pending hq hs).trans ht, ?_, ?_, hstrobe⟩
    · rw [hqueue, hrest]; rfl
    · rw [hqueue]; exact hframe

/-! ## Enqueuing a list of codes (R218) -/

theorem forEach_singleton {α : Type} (x : α) (f : α → State → Result) (s : State) : forEach [x] f s = f x s := by
  rw [forEach_cons]
  cases f x s <;> rfl

/-- An enqueue with room lengthens the queue at its end (`enqueue_pending`), and leaves the head. -/
theorem enqueue_of_room {s : State} (h : s.queue.len.toNat < 16) (code : Byte) :
    ∃ q, enqueue code s = .next (s.withQueue q) ∧ q.head = s.queue.head ∧ q.len.toNat = s.queue.len.toNat + 1 ∧
      pending q = pending s.queue ++ [code] := by
  obtain ⟨q, hq, hpending⟩ := enqueue_pending (code := code) h
  refine ⟨q, hq, (enqueue_synthStep hq).head, ?_, hpending⟩
  rw [← pending_length, ← pending_length, hpending, List.length_append, List.length_singleton]

/-- Codes for which the queue has room are appended in their order, and the oldest event stays where it is. -/
theorem forEach_enqueue_of_room {cs : List Byte} {s : State} (h : s.queue.len.toNat + cs.length ≤ 16) :
    ∃ q, forEach cs enqueue s = .next (s.withQueue q) ∧ q.head = s.queue.head ∧ pending q = pending s.queue ++ cs := by
  induction cs generalizing s with
  | nil => exact ⟨s.queue, rfl, rfl, (List.append_nil _).symm⟩
  | cons c cs ih =>
    rw [List.length_cons] at h
    obtain ⟨q, hq, hhead, hlen, hpending⟩ := enqueue_of_room (s := s) (by omega) c
    obtain ⟨q', hrun, hhead', hpending'⟩ := ih (s := s.withQueue q) (by rw [State.withQueue_queue, hlen]; omega)
    refine ⟨q', ?_, hhead'.trans hhead, ?_⟩
    · rw [forEach_cons, hq]; exact hrun
    · rw [hpending', State.withQueue_queue, hpending, List.append_assoc, List.singleton_append]

theorem enqueue_of_full {s : State} (h : s.queue.len = 16#5) (code : Byte) :
    enqueue code s = .fault (.queueOverflow code) := if_pos h

/-- Codes for which the queue has no room end in a fault at the first that meets the full queue. -/
theorem forEach_enqueue_of_no_room {cs : List Byte} {s : State} (hcap : s.queue.len.toNat ≤ 16)
    (h : 16 < s.queue.len.toNat + cs.length) :
    forEach cs enqueue s = .fault (.queueOverflow (cs.getD (16 - s.queue.len.toNat) 0x00#8)) := by
  induction cs generalizing s with
  | nil => exact absurd h (by simpa using hcap)
  | cons c cs ih =>
    rw [List.length_cons] at h
    rcases hcap.eq_or_lt with hfull | hroom
    · rw [forEach_cons, enqueue_of_full (BitVec.eq_of_toNat_eq hfull), hfull]; rfl
    · obtain ⟨q, hq, -, hlen, -⟩ := enqueue_of_room hroom c
      have hrun := ih (s := s.withQueue q) (by rw [State.withQueue_queue, hlen]; omega)
        (by rw [State.withQueue_queue, hlen]; omega)
      rw [forEach_cons, hq, andThen_next, hrun, State.withQueue_queue, hlen,
        show 16 - s.queue.len.toNat = (16 - (s.queue.len.toNat + 1)) + 1 by omega, List.getD_cons_succ]

theorem forEach_enqueue_eq_next {cs : List Byte} {s t : State} (h : forEach cs enqueue s = .next t) :
    ∃ q, t = s.withQueue q :=
  forEach_keeps (fun u => ∃ q, u = s.withQueue q)
    (fun _ _ _ hu ht => queueFrame_trans hu ((enqueue_frame ht).imp fun _ hq => hq.1)) ⟨s.queue, rfl⟩ h

/-- No enqueue reads or writes the modifiers. -/
theorem enqueue_withMods (c : Byte) (m : Modifiers) (s : State) :
    enqueue c (s.withMods m) = andThen (enqueue c s) fun t => .next (t.withMods m) := by
  by_cases hfull : s.queue.len = 16#5
  · rw [enqueue_of_full hfull]; exact enqueue_of_full (s := s.withMods m) hfull c
  · refine (if_neg hfull).trans ?_
    rw [enqueue, if_neg hfull]; rfl

theorem forEach_enqueue_withMods (cs : List Byte) (m : Modifiers) (s : State) :
    forEach cs enqueue (s.withMods m) = andThen (forEach cs enqueue s) fun t => .next (t.withMods m) := by
  induction cs generalizing s with
  | nil => rfl
  | cons c cs ih =>
    rw [forEach_cons, forEach_cons, enqueue_withMods]
    cases enqueue c s with
    | next t => exact ih t
    | fault e => rfl
    | refused e => rfl

/-! ## The parts of a `KEY` stimulus as lists of codes (R210 to R217) -/

/-- Enqueue `cs`, and leave the modifiers `m`: what each part of a `KEY` stimulus amounts to. -/
def synthesize (cs : List Byte) (m : Modifiers) (s : State) : Result := forEach cs enqueue (s.withMods m)

/-- One part after another enqueues the codes of both. -/
theorem andThen_synthesize {cs ds : List Byte} {m n : Modifiers} {s : State} {k : State → Result}
    (hk : ∀ q, k ((s.withQueue q).withMods m) = synthesize ds n ((s.withQueue q).withMods m)) :
    andThen (synthesize cs m s) k = synthesize (cs ++ ds) n s := by
  rw [synthesize, synthesize, forEach_append, forEach_enqueue_withMods, forEach_enqueue_withMods]
  cases hrun : forEach cs enqueue s with
  | next t =>
    obtain ⟨q, rfl⟩ := forEach_enqueue_eq_next hrun
    exact hk q
  | fault e => rfl
  | refused e => rfl

/-- The modifiers after an injection, if it is wanted. -/
def injected (wanted : Bool) (k : Nat) (m : Modifiers) : Modifiers :=
  { m with inj := if wanted then putBit m.inj k true else m.inj }

theorem injected_inj_getLsbD (b : Bool) (k : Nat) (m : Modifiers) {j : Nat} (hj : j < 6) :
    (injected b k m).inj.getLsbD j = (m.inj.getLsbD j || (b && decide (j = k))) := by
  cases b with
  | false => simp [injected]
  | true =>
    rw [injected, if_pos rfl, putBit_getLsbD _ _ _ hj]
    split <;> simp [*]

theorem injected_inj_getLsbD_of_ne (b : Bool) {j k : Nat} (m : Modifiers) (hj : j < 6) (hne : j ≠ k) :
    (injected b k m).inj.getLsbD j = m.inj.getLsbD j := by
  rw [injected_inj_getLsbD b k m hj, decide_eq_false hne, Bool.and_false, Bool.or_false]

/-- What the five injections of R214 make of the modifiers: a bit already set is set again by the mask. -/
theorem injected_eq_injectedMask (m : Modifiers) (e : BitVec 10) :
    injected (e.getLsbD 9 && m.live.getLsbD 1 && !m.inj.getLsbD 5) injRrel
      (injected (e.getLsbD 9 && m.live.getLsbD 0 && !m.inj.getLsbD 4) injLrel
      (injected (e.getLsbD 9 && !m.live.getLsbD 3 && !m.inj.getLsbD 3) injFn
      (injected (e.getLsbD 8 && !m.live.getLsbD 2 && !m.inj.getLsbD 2) injCtrl
      (injected (e.getLsbD 7 && !m.live.getLsbD 0 && !m.live.getLsbD 1 && !m.inj.getLsbD 0) injShift m)))) =
    { m with inj := injectedMask m e } := by
  have hbit : ∀ x a : Bool, (x || (a && !x)) = (x || a) := by decide
  rw [Modifiers.mk.injEq]
  refine ⟨rfl, BitVec.eq_of_getLsbD_eq fun j hj => ?_⟩
  simp only [injected_inj_getLsbD _ _ _ hj, injectedMask, BitVec.getLsbD_or, BitVec.getLsbD_append, BitVec.getLsbD_ofBool]
  interval_cases j <;> simp [injShift, injCtrl, injFn, injLrel, injRrel, hbit]

section
variable {b : Bool} {s : State} {code : Byte} {xs : List (Bool × Byte)}

theorem owed_cons : owed ((b, code) :: xs) = owed [(b, code)] ++ owed xs := by cases b <;> rfl

theorem releaseIf_eq_synthesize : releaseIf b code s = synthesize (owed [(b, code)]) s.mods s := by
  cases b with
  | false => rfl
  | true => exact (forEach_singleton code enqueue s).symm

theorem injectIf_eq_synthesize {wanted : State → Bool} {j : Nat} (hb : wanted s = b) :
    injectIf wanted code j s = synthesize (owed [(b, code)]) (injected b j s.mods) s := by
  subst hb
  unfold injectIf
  cases hw : wanted s with
  | false => rfl
  | true =>
    have hcodes : forEach (owed [(true, code)]) enqueue s = enqueue code s := forEach_singleton code enqueue s
    rw [synthesize, forEach_enqueue_withMods, hcodes, if_pos rfl]
    refine andThen_congr fun t ht => ?_
    obtain ⟨-, rfl⟩ := enqueue_eq_next ht
    rfl

theorem andThen_releaseIf {m : Modifiers} {k : State → Result}
    (hk : ∀ q, k (s.withQueue q) = synthesize (owed xs) m (s.withQueue q)) :
    andThen (releaseIf b code s) k = synthesize (owed ((b, code) :: xs)) m s := by
  rw [releaseIf_eq_synthesize, owed_cons (xs := xs)]
  exact andThen_synthesize hk

theorem andThen_injectIf {wanted : State → Bool} {j : Nat} {m : Modifiers} {k : State → Result} (hb : wanted s = b)
    (hk : ∀ q, k ((s.withQueue q).withMods (injected b j s.mods)) =
      synthesize (owed xs) m ((s.withQueue q).withMods (injected b j s.mods))) :
    andThen (injectIf wanted code j s) k = synthesize (owed ((b, code) :: xs)) m s := by
  rw [injectIf_eq_synthesize hb, owed_cons (xs := xs)]
  exact andThen_synthesize hk

end

/-- The five releases of R215. -/
theorem release_eq_synthesize (s : State) :
    release s = synthesize (releasedCodes s.cfg s.mods) { s.mods with inj := 0#6 } s :=
  andThen_releaseIf fun _ => andThen_releaseIf fun _ => andThen_releaseIf fun _ => andThen_releaseIf fun _ =>
    andThen_releaseIf fun _ => rfl

/-- The five injections of R214: none touches the bit that a later one asks for. -/
theorem inject_eq_synthesize (e : BitVec 10) (s : State) :
    inject e s = synthesize (injectedCodes s.cfg s.mods e) { s.mods with inj := injectedMask s.mods e } s := by
  rw [← injected_eq_injectedMask]
  refine andThen_injectIf rfl fun _ => andThen_injectIf ?_ fun _ => andThen_injectIf ?_ fun _ => andThen_injectIf ?_
    fun _ => injectIf_eq_synthesize ?_
  all_goals
    simp (disch := decide) only [isInjected, State.withMods_mods, injected_inj_getLsbD_of_ne]
    rfl

/-! ## A `KEY` stimulus (R210 to R217) -/

/-- The index of the lookup under the live shifts (R211). -/
def heldIndex (m : Modifiers) (kc : BitVec 7) : Byte := remapIndex (m.live.getLsbD 0 || m.live.getLsbD 1) kc

/-- The entry that the lookup finds (R211). -/
def foundEntry (c : Config) (m : Modifiers) (kc : BitVec 7) : BitVec 10 := remapEntry c (heldIndex m kc)

/-- The primary event (R217). -/
def primaryCode (c : Config) (m : Modifiers) (kc : BitVec 7) (up : Bool) : Byte :=
  eventCode up (entryTarget (foundEntry c m kc))

/-- The codes owed before the primary event, and the modifiers left: a modifier key follows the live state (R213), another
key-up releases (R215), a key-down injects unless its entry is passthrough (R212, R214). -/
def middleOutcome (c : Config) (m : Modifiers) (kc : BitVec 7) (up : Bool) : List Byte × Modifiers :=
  match modifierBit c kc with
  | some k => ([], { m with live := putBit m.live k (!up) })
  | none =>
    if up then (releasedCodes c m, { m with inj := 0#6 })
    else if foundEntry c m kc = identityEntry (heldIndex m kc) then ([], m)
    else (injectedCodes c m (foundEntry c m kc), { m with inj := injectedMask m (foundEntry c m kc) })

theorem middleOutcome_of_modifier {c : Config} {kc : BitVec 7} {k : Nat} (h : modifierBit c kc = some k) (m : Modifiers)
    (up : Bool) : middleOutcome c m kc up = ([], { m with live := putBit m.live k (!up) }) := by
  rw [middleOutcome, h]

theorem middleOutcome_of_up {c : Config} {kc : BitVec 7} (h : modifierBit c kc = none) (m : Modifiers) :
    middleOutcome c m kc true = (releasedCodes c m, { m with inj := 0#6 }) := by
  rw [middleOutcome, h]; rfl

theorem middleOutcome_of_down {c : Config} {kc : BitVec 7} (h : modifierBit c kc = none) (m : Modifiers) :
    middleOutcome c m kc false =
      if foundEntry c m kc = identityEntry (heldIndex m kc) then ([], m)
      else (injectedCodes c m (foundEntry c m kc), { m with inj := injectedMask m (foundEntry c m kc) }) := by
  rw [middleOutcome, h]; rfl

/-- The four comparisons of R213 are the search for the keycode's live bit. -/
theorem ite_modifierKeys_eq_elim {α : Type} (c : Config) (kc : BitVec 7) (f : Nat → α) (x : α) :
    (if kc = c.kcLshift then f 0 else if kc = c.kcRshift then f 1 else if kc = c.kcCtrl then f 2
      else if kc = c.kcAlt then f 3 else x) = (modifierBit c kc).elim x f := by
  unfold modifierBit
  split_ifs <;> rfl

/-- The five steps as the statements' `keyOutcome` writes them out. -/
theorem keyOutcome_eq (c : Config) (m : Modifiers) (kc : BitVec 7) (up : Bool) :
    keyOutcome c m kc up =
      ((middleOutcome c m kc up).1 ++ [primaryCode c m kc up], (middleOutcome c m kc up).2) := by
  have hprimary : primaryCode c m kc up = BitVec.ofBool up ++ (foundEntry c m kc).extractLsb' 0 7 := by
    rw [primaryCode, eventCode, entryTarget, BitVec.setWidth_eq_extractLsb' (by decide)]
  rw [hprimary]
  refine (ite_modifierKeys_eq_elim c kc (fun k => ([BitVec.ofBool up ++ (foundEntry c m kc).extractLsb' 0 7],
    { m with live := if up then m.live &&& ~~~BitVec.twoPow 4 k else m.live ||| BitVec.twoPow 4 k })) _).trans ?_
  cases hmod : modifierBit c kc with
  | some k => rw [middleOutcome_of_modifier hmod]; cases up <;> rfl
  | none =>
    cases up with
    | true => rw [middleOutcome_of_up hmod]; rfl
    | false =>
      rw [middleOutcome_of_down hmod]
      by_cases hid : foundEntry c m kc = identityEntry (heldIndex m kc)
      · rw [if_pos hid]; exact if_pos hid
      · rw [if_neg hid]; exact if_neg hid

theorem keyEvent_eq_synthesize (kc : BitVec 7) (up : Bool) (s : State) :
    keyEvent kc up s = synthesize (keyOutcome s.cfg s.mods kc up).1 (keyOutcome s.cfg s.mods kc up).2 s := by
  have hprimary : ∀ m q, enqueue (primaryCode s.cfg s.mods kc up) ((s.withQueue q).withMods m) =
      synthesize [primaryCode s.cfg s.mods kc up] m ((s.withQueue q).withMods m) :=
    fun m q => (forEach_singleton _ enqueue ((s.withQueue q).withMods m)).symm
  rw [keyOutcome_eq, ← andThen_synthesize (hprimary _)]
  refine congrArg (andThen · _) ?_
  cases hmod : modifierBit s.cfg kc with
  | some k => rw [middleOutcome_of_modifier hmod]; rfl
  | none =>
    cases up with
    | true => rw [middleOutcome_of_up hmod]; exact release_eq_synthesize s
    | false =>
      rw [middleOutcome_of_down hmod]
      by_cases hid : foundEntry s.cfg s.mods kc = identityEntry (heldIndex s.mods kc)
      · rw [if_pos hid]; exact if_pos hid
      · rw [if_neg hid]; exact (if_neg hid).trans (inject_eq_synthesize _ s)

theorem encode_key_eq_ofNat (kc : BitVec 7) (up : Bool) :
    encode (if up then .keyUp kc else .keyDown kc) = BitVec.ofNat 32 (0x50000000 + up.toNat * 2 ^ 7 + kc.toNat) := by
  have hword : encode (if up then .keyUp kc else .keyDown kc) = keyWord up kc := by cases up <;> rfl
  apply BitVec.eq_of_toNat_eq
  rw [hword, keyWord, append_toNat, append_toNat, BitVec.toNat_ofBool, BitVec.toNat_ofNat, BitVec.toNat_ofNat]
  have := up.toNat_le
  omega

theorem exec_key_of_attached {s : State} (hs : Attached s) (kc : BitVec 7) (up : Bool) :
    exec (if up then .keyUp kc else .keyDown kc) s =
      synthesize (keyOutcome s.cfg s.mods kc up).1 (keyOutcome s.cfg s.mods kc up).2 s := by
  rw [← keyEvent_eq_synthesize]
  cases up <;> exact whenAttached_of hs

/-- Settles O45: the stimulus is one list of enqueues, which has room or meets the full queue. -/
theorem keyEnqueuesItsCodes : Obligations.KeyEnqueuesItsCodes := by
  intro kc up s hs hcap
  rw [exec_key_of_attached hs, pending_length]
  generalize keyOutcome s.cfg s.mods kc up = outcome
  obtain ⟨codes, mods⟩ := outcome
  exact ⟨encode_key_eq_ofNat kc up, fun hroom => forEach_enqueue_of_room (s := s.withMods mods) hroom,
    fun hfull => forEach_enqueue_of_no_room (s := s.withMods mods) hcap hfull⟩

/-! ## How many codes (R223) -/

theorem owed_length_cons (b : Bool) (code : Byte) (xs : List (Bool × Byte)) :
    (owed ((b, code) :: xs)).length = b.toNat + (owed xs).length := by
  cases b with
  | false => exact (Nat.zero_add _).symm
  | true => exact Nat.add_comm _ 1

/-- Of five codes whose first and fourth exclude each other at most four are owed. -/
theorem owed_length_le_four {b1 b2 b3 b4 b5 : Bool} {c1 c2 c3 c4 c5 : Byte} (h : (b1 && b4) = false) :
    (owed [(b1, c1), (b2, c2), (b3, c3), (b4, c4), (b5, c5)]).length ≤ 4 := by
  have hexclusive : b1.toNat + b4.toNat ≤ 1 := by revert h; cases b1 <;> cases b4 <;> decide
  have h2 := b2.toNat_le
  have h3 := b3.toNat_le
  have h5 := b5.toNat_le
  simp only [owed_length_cons, show owed [] = [] from rfl, List.length_nil]
  omega

/-- A shift is injected or released only while the left shift is up, the left shift's complement only while it is held. -/
theorem middleOutcome_length_le (c : Config) (m : Modifiers) (kc : BitVec 7) (up : Bool) :
    (middleOutcome c m kc up).1.length ≤ 4 := by
  cases hmod : modifierBit c kc with
  | some k => rw [middleOutcome_of_modifier hmod]; exact Nat.zero_le 4
  | none =>
    cases up with
    | true =>
      rw [middleOutcome_of_up hmod]
      exact owed_length_le_four (by cases m.live.getLsbD 0 <;> simp)
    | false =>
      rw [middleOutcome_of_down hmod]
      split
      · exact Nat.zero_le 4
      · exact owed_length_le_four (by cases m.live.getLsbD 0 <;> simp)

theorem keyOutcome_length_bounds (c : Config) (m : Modifiers) (kc : BitVec 7) (up : Bool) :
    1 ≤ (keyOutcome c m kc up).1.length ∧ (keyOutcome c m kc up).1.length ≤ 5 := by
  have hmiddle := middleOutcome_length_le c m kc up
  rw [keyOutcome_eq, List.length_append, List.length_singleton]
  omega

/-- The primary event is the last code and has the polarity of the stimulus (30_encoding R74). -/
theorem keyOutcome_getLast? (c : Config) (m : Modifiers) (kc : BitVec 7) (up : Bool) :
    ∃ last, (keyOutcome c m kc up).1.getLast? = some last ∧ last.getLsbD 7 = up := by
  refine ⟨primaryCode c m kc up, by rw [keyOutcome_eq]; exact List.getLast?_concat, ?_⟩
  rw [primaryCode, eventCode, BitVec.getLsbD_append]
  simp

/-- Settles O46: by the number of codes and the room they find. -/
theorem keyEnqueuesOneToFiveCodes : Obligations.KeyEnqueuesOneToFiveCodes := by
  intro kc s hs
  refine ⟨fun hroom => ?_, fun hcap up t ht => ?_⟩
  · have hcompletes : ∀ up : Bool, ∃ t, exec (if up then .keyUp kc else .keyDown kc) s = .next t := fun up => by
      obtain ⟨-, hle⟩ := keyOutcome_length_bounds s.cfg s.mods kc up
      obtain ⟨-, hfits, -⟩ := keyEnqueuesItsCodes kc up s hs (by omega)
      obtain ⟨q, hq, -⟩ := hfits (by rw [pending_length]; omega)
      exact ⟨_, hq⟩
    exact ⟨hcompletes false, hcompletes true⟩
  · obtain ⟨hpos, hle⟩ := keyOutcome_length_bounds s.cfg s.mods kc up
    obtain ⟨-, hfits, hoverflows⟩ := keyEnqueuesItsCodes kc up s hs hcap
    rcases Nat.lt_or_ge 16 ((pending s.queue).length + (keyOutcome s.cfg s.mods kc up).1.length) with hover | hroom
    · rw [hoverflows hover] at ht; cases ht
    · obtain ⟨q, hq, -, hpending⟩ := hfits hroom
      rw [hq] at ht
      cases ht
      refine ⟨_, hpos, hle, hpending, keyOutcome_getLast? _ _ _ _, fun hlen => ?_⟩
      have hlength := congrArg List.length hpending
      rw [pending_length, List.length_append, show q.len = 0#5 from hlen, BitVec.toNat_ofNat] at hlength
      omega

end Sys2Proof.Machine

/-! The lifecycle (70_reset_and_hazards): the reset state's values, the checks of R269 one by one as the conditions that
`WellFormedConfig` writes out, and the two stimuli `ATTACH` and `TEARDOWN`. -/

namespace Sys2Proof.Machine

/-! ## The reset state (10_state section 10, R261 to R266) -/

theorem defaultHandler_strobeLine (c : Fin 11) : defaultHandler (strobeLine c) = .strobe c :=
  dif_pos c.isLt

theorem defaultHandler_csLine (i : Fin 3) : defaultHandler (csLine i) = .cs i := by
  have hlow : ¬(csLine i).val < 11 := by simp only [csLine]; omega
  have hrange : 29 ≤ (csLine i).val ∧ (csLine i).val < 32 := by simp only [csLine]; omega
  rw [defaultHandler, dif_neg hlow, dif_pos hrange]
  exact congrArg Handler.cs (Fin.ext (Nat.add_sub_cancel_left ..))

theorem defaultHandler_of_outside {l : Line} (hstrobe : 11 ≤ l.val) (hcs : l.val < 29 ∨ 32 ≤ l.val) :
    defaultHandler l = .ext := by
  rw [defaultHandler, dif_neg (by omega), dif_neg (by omega)]

/-- Settles O7: the lines by the default wiring, every other element by its definition. -/
theorem resetStateHoldsTheSpecsValues : Obligations.ResetStateHoldsTheSpecsValues := by
  refine ⟨fun l => by rw [lineAt_reset]; exact ⟨rfl, rfl⟩, fun c => ?_, fun i => ?_, fun l hstrobe hcs => ?_, rfl, rfl, rfl,
    rfl, rfl, rfl, rfl, rfl, rfl, 0, rfl⟩
  · rw [lineAt_reset, defaultHandler_strobeLine]
  · rw [lineAt_reset, defaultHandler_csLine]
  · rw [lineAt_reset, defaultHandler_of_outside hstrobe hcs]

/-! ## The checks of R269, one by one -/

section
variable {c : Config}

/-- A check that fails is the problem; one that passes leaves the rest of the checks. -/
theorem ite_not_some_eq_none_iff {b : Bool} {why : ConfigProblem} {rest : Option ConfigProblem} :
    (if !b then some why else rest) = none ↔ b = true ∧ rest = none := by
  cases b <;> simp

/-- The checks find no problem exactly if each of the nine passes. -/
theorem configProblem_eq_none_iff :
    configProblem c = none ↔
      rangesOk c = true ∧ keymapOk c = true ∧ remapOk c = true ∧ modifierKeysOk c = true ∧ modifierTargetsOk c = true ∧
        handlersOnceOk c = true ∧ wiringAcyclicOk c = true ∧ tickRateOk c = true ∧ invertOk c = true := by
  simp only [configProblem, ite_not_some_eq_none_iff, and_true]

theorem rangesOk_iff :
    rangesOk c = true ↔ (c.nandBase + 0x40 ≤ 2 ^ c.addrBits ∧ c.expBase + 0x40 ≤ 2 ^ c.addrBits) ∧
      (c.nandBase + 0x40 ≤ c.expBase ∨ c.expBase + 0x40 ≤ c.nandBase) := by
  simp only [rangesOk, Bool.and_eq_true, Bool.or_eq_true, decide_eq_true_eq]
  rfl

theorem keyEntryOk_iff {e : KeyEntry} :
    keyEntryOk e = true ↔ ∀ row col, e = .cell row col → row ≤ 7 ∧ col ≤ 10 ∧ (row = 7 → col ≤ 4) := by
  cases e with
  | unmapped => simp [keyEntryOk]
  | cell row col =>
    have hcell : keyEntryOk (.cell row col) = true ↔ row ≤ 7 ∧ col ≤ 10 ∧ (row = 7 → col ≤ 4) := by
      simp only [keyEntryOk, Bool.or_eq_true, Bool.and_eq_true, decide_eq_true_eq, beq_iff_eq]
      omega
    rw [hcell]
    constructor
    · rintro h _ _ ⟨⟩; exact h
    · exact fun h => h row col rfl

theorem keymapOk_iff :
    keymapOk c = true ↔ c.keymap.length = 128 ∧
      ∀ e ∈ c.keymap, ∀ row col, e = .cell row col → row ≤ 7 ∧ col ≤ 10 ∧ (row = 7 → col ≤ 4) := by
  simp only [keymapOk, Bool.and_eq_true, beq_iff_eq, List.all_eq_true, keyEntryOk_iff]

theorem remapOk_iff : remapOk c = true ↔ c.remap.length = 256 := beq_iff_eq

theorem modifierKeysOk_iff : modifierKeysOk c = true ↔ [c.kcLshift, c.kcRshift, c.kcCtrl, c.kcAlt].Nodup :=
  decide_eq_true_iff

theorem modifierTargetsOk_iff :
    modifierTargetsOk c = true ↔ ∀ kc ∈ [c.kcLshift, c.kcRshift, c.kcCtrl, c.kcAlt], ∀ shift : Bool,
      entryTarget (remapEntry c (remapIndex shift kc)) = kc := by
  simp only [modifierTargetsOk, modifierKeys, List.all_eq_true, Bool.and_eq_true, beq_iff_eq, Bool.forall_bool]

/-- A value is counted at most once exactly if no two places of the vector hold it. -/
theorem count_toList_le_one_iff {α : Type} [BEq α] [LawfulBEq α] {n : Nat} (v : Vector α n) (x : α) :
    v.toList.count x ≤ 1 ↔ ∀ l m, v.get l = x → v.get m = x → l = m := by
  have htwice : ¬v.toList.count x ≤ 1 ↔ ∃ l m, l < m ∧ v.get l = x ∧ v.get m = x := by
    rw [Nat.not_le, Nat.lt_iff_add_one_le, ← List.replicate_sublist_iff]
    refine List.duplicate_iff_sublist.symm.trans (List.duplicate_iff_exists_distinct_get.trans ?_)
    constructor
    · rintro ⟨l, m, hlt, hl, hm⟩
      exact ⟨l.cast v.length_toList, m.cast v.length_toList, hlt, hl.symm, hm.symm⟩
    · rintro ⟨l, m, hlt, hl, hm⟩
      exact ⟨l.cast v.length_toList.symm, m.cast v.length_toList.symm, hlt, hl.symm, hm.symm⟩
  rw [← not_iff_not, htwice]
  constructor
  · rintro ⟨l, m, hlt, hl, hm⟩ hone
    exact hlt.ne (hone l m hl hm)
  · intro hne
    push Not at hne
    obtain ⟨l, m, hl, hm, hlm⟩ := hne
    rcases lt_or_gt_of_ne hlm with hlt | hlt
    · exact ⟨l, m, hlt, hl, hm⟩
    · exact ⟨m, l, hlt, hm, hl⟩

theorem handlersOnceOk_iff :
    handlersOnceOk c = true ↔
      ∀ l m h, h ≠ .ext → c.wiring.get l = some h → c.wiring.get m = some h → l = m := by
  simp only [handlersOnceOk, Bool.and_eq_true, List.all_eq_true, List.mem_finRange, true_implies, decide_eq_true_eq,
    count_toList_le_one_iff]
  constructor
  · rintro ⟨hstrobe, hcs⟩ l m h hne
    cases h with
    | strobe k => exact hstrobe k l m
    | cs i => exact hcs i l m
    | ext => exact absurd rfl hne
  · exact fun h => ⟨fun k l m => h l m (.strobe k) nofun, fun i l m => h l m (.cs i) nofun⟩

theorem isStrobe_eq_false_iff {h : Option Handler} : isStrobe h = false ↔ ∀ k, h ≠ some (.strobe k) := by
  rcases h with _ | (k | i | _) <;> simp [isStrobe]

theorem wiringAcyclicOk_iff :
    wiringAcyclicOk c = true ↔ (∀ (r : Fin 7) k, c.wiring.get (senseLine r) ≠ some (.strobe k)) ∧
      ∀ (j : Fin 5) k, c.wiring.get (specialLine j) ≠ some (.strobe k) := by
  simp only [wiringAcyclicOk, Bool.and_eq_true, List.all_eq_true, List.mem_finRange, true_implies, Bool.not_eq_true',
    isStrobe_eq_false_iff]

theorem tickRateOk_iff : tickRateOk c = true ↔ 0 < c.tickHz := decide_eq_true_iff

theorem invertOk_iff : invertOk c = true ↔ c.invert.length = 5 := beq_iff_eq

/-- R269: the nine checks are the nine conditions. -/
theorem configProblem_eq_none_iff_wellFormed : configProblem c = none ↔ WellFormedConfig c := by
  rw [configProblem_eq_none_iff, rangesOk_iff, keymapOk_iff, remapOk_iff, modifierKeysOk_iff, modifierTargetsOk_iff,
    handlersOnceOk_iff, wiringAcyclicOk_iff, tickRateOk_iff, invertOk_iff]
  constructor
  · rintro ⟨⟨hfit, hapart⟩, ⟨hlength, hentries⟩, hremap, hdistinct, hkept, honce, ⟨hsense, hspecial⟩, hticks, hinvert⟩
    exact ⟨hfit, hapart, hlength, hentries, hremap, hdistinct, hkept, honce, hsense, hspecial, hticks, hinvert⟩
  · intro h
    exact ⟨⟨h.rangesFit, h.rangesApart⟩, ⟨h.keymapLength, h.keymapEntries⟩, h.remapLength, h.modifiersDistinct,
      h.modifiersKept, h.handlerOnOneLine, ⟨h.senseNotStrobe, h.specialNotStrobe⟩, h.ticks, h.invertLength⟩

end

/-! ## `ATTACH` (R260 to R267) -/

/-- The handle is the environment's answer, where there is one. -/
theorem scheduleRepeating_handle {s : State} {h0 : Nat} {rest : List Nat} (h : s.env.handles = h0 :: rest) :
    (scheduleRepeating s).1 = h0 := by
  rw [scheduleRepeating, h]

section
variable {s : State} (hl : s.life = .detached)
include hl

theorem exec_attach_of_problem {why : ConfigProblem} (hc : configProblem s.cfg = some why) :
    exec .attach s = .fault (.configError why) := by
  simp [exec, execAttach, hl, hc]

theorem exec_attach_of_admitted (hc : configProblem s.cfg = none) :
    exec .attach s = .next ((scheduleRepeating (createElements s)).2.withLife
      (.attached (scheduleRepeating (createElements s)).1)) := by
  simp [exec, execAttach, hl, hc]

end

/-- Settles O10: the checks are the conditions, and `ATTACH` completes or faults as they pass or not. -/
theorem attachAdmitsExactlyWellFormedConfigurations : Obligations.AttachAdmitsExactlyWellFormedConfigurations := by
  refine ⟨fun c => configProblem_eq_none_iff_wellFormed, fun s hl => ⟨fun hwf => ?_, fun hill => ?_⟩⟩
  · exact ⟨_, exec_attach_of_admitted hl (configProblem_eq_none_iff_wellFormed.2 hwf)⟩
  · obtain ⟨why, hwhy⟩ := Option.ne_none_iff_exists'.1 (mt configProblem_eq_none_iff_wellFormed.1 hill)
    exact ⟨why, exec_attach_of_problem hl hwhy⟩

/-- Settles O9: an admitted `ATTACH` creates the elements and makes the one scheduler call. -/
theorem attachCreatesTheInitialState : Obligations.AttachCreatesTheInitialState := by
  intro s hl hwf
  have hrun := exec_attach_of_admitted hl (configProblem_eq_none_iff_wellFormed.2 hwf)
  obtain ⟨env, hcall⟩ := scheduleRepeating_spec (createElements s)
  rw [hcall] at hrun
  refine ⟨rfl, _, _, hrun, rfl, fun h0 rest hh => scheduleRepeating_handle hh, rfl, lineAt_createElements s, rfl,
    fun hclears => if_pos hclears, rfl, rfl, fun i => ?_, fun r => ?_, rfl, rfl, rfl, rfl, rfl, rfl, rfl, rfl, rfl, rfl⟩
  · exact Vector.getElem_replicate i.isLt
  · exact Vector.getElem_replicate r.isLt

/-! ## `TEARDOWN` (R270) -/

theorem exec_teardown_of_attached {s : State} {tick : Nat} (h : s.life = .attached tick) :
    exec .teardown s = .next ((s.withTrace (s.trace ++ [.cancel tick])).withLife .tornDown) := by
  simp only [exec, execTeardown, h]
  rfl

/-- Settles O12: the equation of `TEARDOWN`, after which the phase refuses every stimulus. -/
theorem teardownCancelsTheTickOnce : Obligations.TeardownCancelsTheTickOnce := by
  intro s tick h
  refine ⟨rfl, _, exec_teardown_of_attached h, rfl, fun i => ?_⟩
  obtain ⟨-, hrefuses, -⟩ := onlyAttachedBlocksTakeStimuli i ((s.withTrace (s.trace ++ [.cancel tick])).withLife .tornDown)
  exact hrefuses rfl

end Sys2Proof.Machine

/-! The faults (60_exceptions R240 to R245): from which stimulus each of them comes (`FaultSource`), why the wiring that
`ATTACH` admits leaves no re-entry to meet, and what keeps that wiring (70_reset_and_hazards R282). -/

namespace Sys2Proof.Machine

/-! ## Where a shared operation can fault -/

theorem whenAttached_eq_fault {s : State} {r : Result} {e : Fault} :
    whenAttached s r = .fault e ↔ Attached s ∧ r = .fault e := by
  unfold whenAttached Attached
  split <;> simp_all

theorem ne_fault_of_completes {r : Result} (h : ∃ t, r = .next t) (e : Fault) : r ≠ .fault e := by
  obtain ⟨t, rfl⟩ := h
  nofun

/-- A loop faults in one of its iterations. -/
theorem forEach_eq_fault {α : Type} {f : α → State → Result} {xs : List α} {s : State} {e : Fault}
    (h : forEach xs f s = .fault e) : ∃ x m, f x m = .fault e := by
  induction xs generalizing s with
  | nil => cases h
  | cons x xs ih =>
    rcases andThen_eq_fault.1 h with hx | ⟨m, -, hrest⟩
    · exact ⟨x, s, hx⟩
    · exact ih hrest

theorem enqueue_eq_fault {code : Byte} {s : State} {e : Fault} (h : enqueue code s = .fault e) :
    e = .queueOverflow code := by
  unfold enqueue at h
  split at h
  · cases h; rfl
  · cases h

/-- A `KEY` stimulus is a list of enqueues, and these fault only on the full queue (46_key_synth R218). -/
theorem keyEvent_eq_fault {kc : BitVec 7} {up : Bool} {s : State} {e : Fault} (h : keyEvent kc up s = .fault e) :
    ∃ code, e = .queueOverflow code := by
  rw [keyEvent_eq_synthesize] at h
  obtain ⟨code, m, hcode⟩ := forEach_eq_fault h
  exact ⟨code, enqueue_eq_fault hcode⟩

/-- Applying an event can fault only in the store of a cell or on the line of a special key (45_key_matrix R193). -/
theorem keyApply_eq_fault {code : Byte} {s : State} {e : Fault} (h : keyApply code s = .fault e) :
    (∃ row col, keyCell row col (eventUp code) s = .fault e) ∨ ∃ col v, sigSet (specialLine col) v s = .fault e := by
  unfold keyApply at h
  split at h
  · cases h
  · split at h
    · exact .inl ⟨_, _, h⟩
    · split at h
      · exact .inr ⟨_, _, h⟩
      · cases h

theorem keyCell_eq_fault {row : Fin 7} {col : Fin 11} {up : Bool} {s : State} {e : Fault}
    (h : keyCell row col up s = .fault e) : ReentryAfter .keyMatrix s e := by
  unfold keyCell at h
  split at h
  · cases h; exact ⟨[], by simp⟩
  · obtain ⟨es, rfl⟩ := kmRecompute_eq_fault h
    exact ⟨es, rfl⟩

theorem keyApply_reentry {code : Byte} {s : State} {e : Fault} (h : keyApply code s = .fault e) :
    ReentryAfter .keyMatrix s e := by
  rcases keyApply_eq_fault h with ⟨row, col, hcell⟩ | ⟨col, v, hset⟩
  · exact keyCell_eq_fault hcell
  · exact sigSet_eq_fault hset

theorem hsyncFlip_eq_fault {s : State} {e : Fault} (h : hsyncFlip s = .fault e) : ReentryAfter .keyMatrix s e :=
  sigSet_eq_fault (s := s.withHsync (!s.hsync)) h

/-- A tick can fault only in applying the event it took from the queue (46_key_synth R220). -/
theorem tickOnce_eq_fault {s : State} {e : Fault} (h : tickOnce s = .fault e) :
    ∃ code q, keyApply code (s.withQueue q) = .fault e := by
  unfold tickOnce at h
  split at h
  · cases h
  · exact ⟨_, _, h⟩

/-! ## The source of each fault (R240, R243 to R245) -/

/-- The stimuli of each fault: the failed checks of `ATTACH`, the full queue of `KEY`, the re-entry of a stimulus that
dispatches. -/
inductive FaultSource (s : State) : Instr → Fault → Prop
  | attach (why : ConfigProblem) : FaultSource s .attach (.configError why)
  | keyDown (kc : BitVec 7) (code : Byte) : FaultSource s (.keyDown kc) (.queueOverflow code)
  | keyUp (kc : BitVec 7) (code : Byte) : FaultSource s (.keyUp kc) (.queueOverflow code)
  | dispatch {i : Instr} {dev : LoopDev} {seen : List Event} (h : Dispatches s.cfg i) : FaultSource s i (.reentry dev seen)

theorem FaultSource.of_reentryAfter {i : Instr} {s : State} {dev : LoopDev} {e : Fault} (hd : Dispatches s.cfg i)
    (h : ReentryAfter dev s e) : FaultSource s i e := by
  obtain ⟨es, rfl⟩ := h
  exact .dispatch hd

theorem execAttach_eq_fault {s : State} {e : Fault} (h : execAttach s = .fault e) : ∃ why, e = .configError why := by
  unfold execAttach at h
  split at h
  · cases h
  · cases h
  · split at h
    · cases h; exact ⟨_, rfl⟩
    · cases h

theorem execTeardown_ne_fault (s : State) (e : Fault) : execTeardown s ≠ .fault e := by
  unfold execTeardown
  split <;> nofun

/-- The inversion of `exec` for faults. -/
theorem exec_eq_fault {i : Instr} {s : State} {e : Fault} (h : exec i s = .fault e) : FaultSource s i e := by
  cases i
  case attach =>
    obtain ⟨why, rfl⟩ := execAttach_eq_fault h
    exact .attach why
  case teardown => exact absurd h (execTeardown_ne_fault s e)
  all_goals replace h := (whenAttached_eq_fault.1 h).2
  case expRdStatus sz =>
    rcases andThen_eq_fault.1 h with h | ⟨m, -, h⟩
    · split at h
      · rename_i hcfg
        exact .of_reentryAfter (.inr (.inr (.inr (.inr ⟨⟨sz, rfl⟩, hcfg⟩)))) (hsyncFlip_eq_fault h)
      · cases h
    · cases h
  case expWrGpdir sz d =>
    obtain ⟨dev, hre⟩ := expRecompute_eq_fault h
    exact .of_reentryAfter (.inr (.inl ⟨sz, d, .inl rfl⟩)) hre
  case expWrGpout sz d =>
    obtain ⟨dev, hre⟩ := expRecompute_eq_fault h
    exact .of_reentryAfter (.inr (.inl ⟨sz, d, .inr rfl⟩)) hre
  case sigSet l v => exact .of_reentryAfter (.inl ⟨l, v, rfl⟩) (sigSet_eq_fault h)
  case keyDown kc =>
    obtain ⟨code, rfl⟩ := keyEvent_eq_fault h
    exact .keyDown kc code
  case keyUp kc =>
    obtain ⟨code, rfl⟩ := keyEvent_eq_fault h
    exact .keyUp kc code
  case tick =>
    obtain ⟨code, q, h⟩ := tickOnce_eq_fault h
    exact .of_reentryAfter (.inr (.inr (.inl rfl))) (keyApply_reentry (s := s.withQueue q) h)
  case sspWr b =>
    obtain ⟨i, m, h⟩ := forEach_eq_fault h
    cases h
  case hsyncNotify => exact .of_reentryAfter (.inr (.inr (.inr (.inl rfl)))) (hsyncFlip_eq_fault h)
  all_goals cases h

/-- A `KEY` that overflows found no room for five codes (46_key_synth R223). -/
theorem len_of_key_overflow {kc : BitVec 7} {s : State} {e : Fault}
    (h : exec (.keyDown kc) s = .fault e ∨ exec (.keyUp kc) s = .fault e) : 11 < s.queue.len.toNat := by
  have hs : Attached s := by
    rcases h with h | h <;> exact (whenAttached_eq_fault.1 h).1
  by_contra hroom
  obtain ⟨hcompletes, -⟩ := keyEnqueuesOneToFiveCodes kc s hs
  obtain ⟨hdown, hup⟩ := hcompletes (by omega)
  rcases h with h | h
  · exact ne_fault_of_completes hdown e h
  · exact ne_fault_of_completes hup e h

/-- Settles O54: by the source of the fault. -/
theorem faultsComeFromTheirStimuli : Obligations.FaultsComeFromTheirStimuli := by
  intro i s
  refine ⟨fun why h => ?_, fun code h => ?_, fun dev seen h => ?_⟩
  · cases exec_eq_fault h
    rfl
  · cases exec_eq_fault h with
    | keyDown kc => exact ⟨⟨kc, .inl rfl⟩, fun _ => len_of_key_overflow (.inl h)⟩
    | keyUp kc => exact ⟨⟨kc, .inr rfl⟩, fun _ => len_of_key_overflow (.inr h)⟩
  · cases exec_eq_fault h with
    | dispatch hd =>
      rcases hd with hset | hgpio | htick | hsync | ⟨hstatus, -⟩
      · exact .inr (.inr (.inl hset))
      · exact .inl hgpio
      · exact .inr (.inr (.inr (.inl htick)))
      · exact .inr (.inr (.inr (.inr hsync)))
      · exact .inr (.inl hstatus)

/-! ## No re-entry under quiet wiring (R245, 70_reset_and_hazards R282) -/

/-- Outside a running recomputation an event's cell is stored and the rows are recomputed (45_key_matrix R194). -/
theorem keyCell_of_idle {s : State} (hkm : s.running.km = false) (row : Fin 7) (col : Fin 11) (up : Bool) :
    keyCell row col up s = kmRecompute (s.withKm { s.km with pressed := pressedAfter s.km.pressed row col up }) :=
  if_neg (by simp [hkm])

section
variable {s : State} {e : Fault} (hidle : LoopsIdle s) (hquiet : SenseQuiet s)
include hidle hquiet

theorem sigSet_ne_fault_of_quiet (l : Line) (v : Bool) : sigSet l v s ≠ .fault e := by
  obtain ⟨-, hkm⟩ := hidle
  exact ne_fault_of_completes (sigSet_completes l v hkm hquiet) e

theorem keyCell_ne_fault_of_quiet (row : Fin 7) (col : Fin 11) (up : Bool) : keyCell row col up s ≠ .fault e := by
  obtain ⟨-, hkm⟩ := hidle
  rw [keyCell_of_idle hkm]
  refine ne_fault_of_completes (kmRecompute_completes ?_ ?_) e
  · exact hkm
  · exact hquiet

theorem keyApply_ne_fault_of_quiet (code : Byte) : keyApply code s ≠ .fault e := fun h => by
  rcases keyApply_eq_fault h with ⟨row, col, h⟩ | ⟨col, v, h⟩
  · exact keyCell_ne_fault_of_quiet hidle hquiet row col _ h
  · exact sigSet_ne_fault_of_quiet hidle hquiet _ v h

theorem hsyncFlip_ne_fault_of_quiet : hsyncFlip s ≠ .fault e :=
  sigSet_ne_fault_of_quiet (s := s.withHsync (!s.hsync)) hidle hquiet _ _

theorem expRecompute_withExp_ne_fault_of_quiet (x : Expander) : expRecompute (s.withExp x) ≠ .fault e :=
  ne_fault_of_completes (expRecompute_completes (s := s.withExp x) hidle hquiet) e

/-- A stimulus that dispatches meets no re-entry: every handler chain it starts completes. -/
theorem exec_ne_fault_of_dispatches {i : Instr} (hd : Dispatches s.cfg i) : exec i s ≠ .fault e := fun h => by
  rcases hd with ⟨l, v, rfl⟩ | ⟨sz, d, rfl | rfl⟩ | rfl | rfl | ⟨⟨sz, rfl⟩, -⟩
  all_goals replace h := (whenAttached_eq_fault.1 h).2
  · exact sigSet_ne_fault_of_quiet hidle hquiet l v h
  · exact expRecompute_withExp_ne_fault_of_quiet hidle hquiet _ h
  · exact expRecompute_withExp_ne_fault_of_quiet hidle hquiet _ h
  · obtain ⟨code, q, h⟩ := tickOnce_eq_fault h
    exact keyApply_ne_fault_of_quiet (s := s.withQueue q) hidle hquiet code h
  · exact hsyncFlip_ne_fault_of_quiet hidle hquiet h
  · rcases andThen_eq_fault.1 h with h | ⟨m, -, h⟩
    · split at h
      · exact hsyncFlip_ne_fault_of_quiet hidle hquiet h
      · cases h
    · cases h

end

/-- Settles O55: a re-entry comes from a stimulus that dispatches, and under quiet wiring these do not fault. -/
theorem noReentryUnderQuietWiring : Obligations.NoReentryUnderQuietWiring := by
  intro i s dev seen hidle hquiet h
  cases exec_eq_fault h with
  | dispatch hd => exact exec_ne_fault_of_dispatches hidle hquiet hd h

/-! ## What ends quiet wiring (70_reset_and_hazards R269 g, R282; 40_signal_bus R91) -/

/-- The wiring that `ATTACH` admits is quiet. -/
theorem senseQuiet_of_execAttach {s t : State} (h : execAttach s = .next t) : SenseQuiet t := by
  obtain ⟨-, hchecks, tick, env, rfl⟩ := execAttach_eq_next h
  intro r
  have hline : lineAt (createElements s) (senseLine r) = ⟨false, false, s.cfg.wiring.get (senseLine r)⟩ :=
    lineAt_createElements s _
  refine (congrArg (fun x => isStrobe x.handler) hline).trans (isStrobe_eq_false_iff.2 ?_)
  exact (configProblem_eq_none_iff_wellFormed.1 hchecks).senseNotStrobe r

/-- A stimulus writes no binding of a strobe handler to a SENSE line, but as that binding itself. -/
theorem DirectWrite.senseQuiet {i : Instr} {s u : State} (w : DirectWrite s i u)
    (hi : ∀ (r : Fin 7) (c : Fin 11), i ≠ .sigReg (senseLine r) (.strobe c)) (hs : SenseQuiet s) : SenseQuiet u := by
  cases w with
  | sigReg l hd =>
    intro r
    unfold sigRegister
    by_cases hl : senseLine r = l
    · subst hl
      rw [lineAt_setLine_self, isStrobe_eq_false_iff]
      rintro k ⟨⟩
      exact hi r k rfl
    · rw [lineAt_setLine_ne _ _ hl]
      exact hs r
  | _ => exact hs

/-- Settles O56: `ATTACH` by its checks, any other stimulus by its own writes; no dispatch binds a handler. -/
theorem onlySigRegEndsQuietWiring : Obligations.OnlySigRegEndsQuietWiring := by
  intro i s t h
  by_cases hi : i = .attach
  · subst hi
    exact ⟨fun _ => senseQuiet_of_execAttach h, fun _ _ => senseQuiet_of_execAttach h⟩
  · refine ⟨fun ha => absurd ha hi, fun hbind hs => ?_⟩
    obtain ⟨u, heffect⟩ := exec_effect hi h
    exact (heffect.written.senseQuiet hbind hs).of_frame heffect.dispatched.toDispatchFrame

end Sys2Proof.Machine
